-- ==== Sys2Proof/Word.lean ====
section
/-! DEFINITION. The two word types of the core: bytes and 16-bit words (00_scope.md R7, R9). -/

namespace Sys2Proof

/-- A byte, 8 bits: A, X, Y, S, P and every memory location (R7, R9). -/
abbrev Byte := BitVec 8

/-- A word, 16 bits: PC and addresses (R7, R9). -/
abbrev Word := BitVec 16

end Sys2Proof
end

