-- ==== Sys2Proof/Config.lean ====
section
/-! DEFINITION. What an implementation fixes: the instruction kinds and addressing modes by name, and the
parameters of 00_scope.md R8 as one record of plain data. The spec leaves no instruction result undefined,
so there is no free value here. -/

namespace Sys2Proof

/-- The InstructionKind of an opcode: the 56 kinds of 30_encoding.md R92, and the sentinel "no instruction". -/
inductive Kind where
  | adc | sbc | and | ora | eor | bit | cmp | cpx | cpy | asl | lsr | rol | ror | inc | dec
  | inx | iny | dex | dey | bcc | bcs | beq | bmi | bne | bpl | bvc | bvs | jmp | jsr | rts
  | rti | brk | pha | php | pla | plp | lda | ldx | ldy | sta | stx | sty | tax | tay | tsx
  | txa | txs | tya | clc | cld | cli | clv | sec | sed | sei | nop
  | noInstruction
  deriving DecidableEq, Repr

/-- The AddressingMode of an opcode: the 13 modes of 30_encoding.md R81, and "no addressing mode" (R83). -/
inductive Mode where
  | imp | acc | imm | rel | zp | zpx | zpy | izx | izy | abs | abx | aby | ind
  | noMode
  deriving DecidableEq, Repr

/-- `PRG_BANKS`, 1 or 2 banks of 16 KB (R8, 20_memory.md R54). -/
inductive Banks where
  | one | two
  deriving DecidableEq, Repr

/-- `BRANCH_PAGE_BASE`: the address whose page a branch target is compared with (R8, 44_control.md R190). -/
inductive BranchBase where
  | opcode | next
  deriving DecidableEq, Repr

/-- `RESET_REGS`: A, X, Y and the bits C, Z, D, B, V, N of P after reset (R8, 10_state.md R42). -/
structure ResetRegs where
  a : Byte
  x : Byte
  y : Byte
  carry : Bool
  zero : Bool
  decimal : Bool
  brk : Bool
  overflow : Bool
  negative : Bool
  deriving DecidableEq, Repr

/-- `CYCLE_TABLE`: the two base-cost tables, in the shape of 30_encoding.md R94 and R93: each row a cost and
the kinds, or the modes, that have it. -/
structure CycleTable where
  kindRows : List (Nat × List Kind)
  modeRows : List (Nat × List Mode)
  deriving DecidableEq, Repr

/-- The parameters of 00_scope.md R8. DESIGN CHOICE (log 1, safe): they stand in a field of State that no step
writes, so that a statement over all states is one over all settings. -/
structure Config where
  /-- `PRG_BANKS` -/
  prgBanks : Banks
  /-- `ADMIT_UNLISTED_KINDS` -/
  admitUnlistedKinds : Bool
  /-- `STORE_SETS_NZ` -/
  storeSetsNZ : Bool
  /-- `JMP_IND_PAGE_WRAP` -/
  jmpIndPageWrap : Bool
  /-- `BEQ_PAGE_PENALTY` -/
  beqPagePenalty : Bool
  /-- `BRANCH_PAGE_BASE` -/
  branchPageBase : BranchBase
  /-- `BRK_PUSH_OFFSET`, 0, 1 or 2 -/
  brkPushOffset : Fin 3
  /-- `BRK_SETS_I` -/
  brkSetsI : Bool
  /-- `INT_SETS_I` -/
  intSetsI : Bool
  /-- `RESET_REGS` -/
  resetRegs : ResetRegs
  /-- `CYCLE_TABLE` -/
  cycleTable : CycleTable
  /-- `INT_ENTRY_CYCLES` -/
  intEntryCycles : Nat
  deriving DecidableEq, Repr

end Sys2Proof
end

