-- ==== Sys2Proof/Machine/Bits.lean ====
section
/-! DEFINITION. The bit and byte operations of the notation (00_scope.md R10, R11). -/

namespace Sys2Proof.Machine

/-- `hi(w) = w[15:8]` (R10). -/
def hi (w : Word) : Byte := w.extractLsb' 8 8

/-- `lo(w) = w[7:0]` (R10). -/
def lo (w : Word) : Byte := w.extractLsb' 0 8

/-- `page(w) = w[15:8]`, the 256-byte page of an address (R10). -/
def page (w : Word) : Byte := hi w

/-- The word `{h, l}`, that is `h * 256 + l` (R10). -/
def cat (h l : Byte) : Word := h ++ l

/-- `zext_16(v)`: the byte unchanged as a word (R11). -/
def zext16 (v : Byte) : Word := v.setWidth 16

/-- `sext_16(v)`: the byte sign-extended to a word (R11). -/
def sext16 (v : Byte) : Word := v.signExtend 16

/-- The byte v with bit i set to b. -/
def setBit (i : Nat) (b : Bool) (v : Byte) : Byte :=
  if b then v ||| (1#8 <<< i) else v &&& ~~~(1#8 <<< i)

end Sys2Proof.Machine
end

