-- ==== Sys2Proof/Syntax.lean ====
section
/-! DEFINITION. The instructions: one constructor per instruction row of the opcode table (30_encoding.md R84, R92,
41_addressing.md R135), named by kind and mode, and one for the 105 sentinel rows (R85). -/

namespace Sys2Proof

/-- An instruction with its operand bytes (R80, R82): `imm` is imm8, `zp` is zp8, `off` is off8 (a signed displacement),
`addr` is abs16. No operand value is reserved (R87). A kind stands only with the modes R135 gives it, so the second
fatal path of R88 cannot be built. -/
inductive Instr where
  -- ADC (R151)
  | adcImm (imm : Byte)
  | adcZp (zp : Byte)
  | adcZpx (zp : Byte)
  | adcAbs (addr : Word)
  | adcAbx (addr : Word)
  | adcAby (addr : Word)
  | adcIzx (zp : Byte)
  | adcIzy (zp : Byte)
  -- SBC (R152)
  | sbcImm (imm : Byte)
  | sbcZp (zp : Byte)
  | sbcZpx (zp : Byte)
  | sbcAbs (addr : Word)
  | sbcAbx (addr : Word)
  | sbcAby (addr : Word)
  | sbcIzx (zp : Byte)
  | sbcIzy (zp : Byte)
  -- AND (R153)
  | andImm (imm : Byte)
  | andZp (zp : Byte)
  | andZpx (zp : Byte)
  | andAbs (addr : Word)
  | andAbx (addr : Word)
  | andAby (addr : Word)
  | andIzx (zp : Byte)
  | andIzy (zp : Byte)
  -- ORA (R154)
  | oraImm (imm : Byte)
  | oraZp (zp : Byte)
  | oraZpx (zp : Byte)
  | oraAbs (addr : Word)
  | oraAbx (addr : Word)
  | oraAby (addr : Word)
  | oraIzx (zp : Byte)
  | oraIzy (zp : Byte)
  -- EOR (R155)
  | eorImm (imm : Byte)
  | eorZp (zp : Byte)
  | eorZpx (zp : Byte)
  | eorAbs (addr : Word)
  | eorAbx (addr : Word)
  | eorAby (addr : Word)
  | eorIzx (zp : Byte)
  | eorIzy (zp : Byte)
  -- BIT (R156)
  | bitZp (zp : Byte)
  | bitAbs (addr : Word)
  -- CMP (R157)
  | cmpImm (imm : Byte)
  | cmpZp (zp : Byte)
  | cmpZpx (zp : Byte)
  | cmpAbs (addr : Word)
  | cmpAbx (addr : Word)
  | cmpAby (addr : Word)
  | cmpIzx (zp : Byte)
  | cmpIzy (zp : Byte)
  -- CPX (R158)
  | cpxImm (imm : Byte)
  | cpxZp (zp : Byte)
  | cpxAbs (addr : Word)
  -- CPY (R159)
  | cpyImm (imm : Byte)
  | cpyZp (zp : Byte)
  | cpyAbs (addr : Word)
  -- ASL (R171)
  | aslAcc
  | aslZp (zp : Byte)
  | aslZpx (zp : Byte)
  | aslAbs (addr : Word)
  | aslAbx (addr : Word)
  -- LSR (R172)
  | lsrAcc
  | lsrZp (zp : Byte)
  | lsrZpx (zp : Byte)
  | lsrAbs (addr : Word)
  | lsrAbx (addr : Word)
  -- ROL (R173)
  | rolAcc
  | rolZp (zp : Byte)
  | rolZpx (zp : Byte)
  | rolAbs (addr : Word)
  | rolAbx (addr : Word)
  -- ROR (R174)
  | rorAcc
  | rorZp (zp : Byte)
  | rorZpx (zp : Byte)
  | rorAbs (addr : Word)
  | rorAbx (addr : Word)
  -- INC (R176)
  | incZp (zp : Byte)
  | incZpx (zp : Byte)
  | incAbs (addr : Word)
  | incAbx (addr : Word)
  -- DEC (R177)
  | decZp (zp : Byte)
  | decZpx (zp : Byte)
  | decAbs (addr : Word)
  | decAbx (addr : Word)
  -- INX (R179)
  | inx
  -- INY (R180)
  | iny
  -- DEX (R181)
  | dex
  -- DEY (R182)
  | dey
  -- BPL (R191)
  | bpl (off : Byte)
  -- BMI (R192)
  | bmi (off : Byte)
  -- BVC (R193)
  | bvc (off : Byte)
  -- BVS (R194)
  | bvs (off : Byte)
  -- BCC (R195)
  | bcc (off : Byte)
  -- BCS (R196)
  | bcs (off : Byte)
  -- BNE (R197)
  | bne (off : Byte)
  -- BEQ (R198)
  | beq (off : Byte)
  -- JMP (R199)
  | jmpAbs (addr : Word)
  | jmpInd (addr : Word)
  -- JSR (R201)
  | jsr (addr : Word)
  -- RTS (R202)
  | rts
  -- RTI (R203)
  | rti
  -- BRK (R204)
  | brk
  -- PHA (R220)
  | pha
  -- PHP (R221)
  | php
  -- PLA (R222)
  | pla
  -- PLP (R223)
  | plp
  -- LDA (R224)
  | ldaImm (imm : Byte)
  | ldaZp (zp : Byte)
  | ldaZpx (zp : Byte)
  | ldaAbs (addr : Word)
  | ldaAbx (addr : Word)
  | ldaAby (addr : Word)
  | ldaIzx (zp : Byte)
  | ldaIzy (zp : Byte)
  -- LDX (R225)
  | ldxImm (imm : Byte)
  | ldxZp (zp : Byte)
  | ldxZpy (zp : Byte)
  | ldxAbs (addr : Word)
  | ldxAby (addr : Word)
  -- LDY (R226)
  | ldyImm (imm : Byte)
  | ldyZp (zp : Byte)
  | ldyZpx (zp : Byte)
  | ldyAbs (addr : Word)
  | ldyAbx (addr : Word)
  -- STA (R227)
  | staZp (zp : Byte)
  | staZpx (zp : Byte)
  | staAbs (addr : Word)
  | staAbx (addr : Word)
  | staAby (addr : Word)
  | staIzx (zp : Byte)
  | staIzy (zp : Byte)
  -- STX (R228)
  | stxZp (zp : Byte)
  | stxZpy (zp : Byte)
  | stxAbs (addr : Word)
  -- STY (R229)
  | styZp (zp : Byte)
  | styZpx (zp : Byte)
  | styAbs (addr : Word)
  -- TAX (R231)
  | tax
  -- TAY (R232)
  | tay
  -- TSX (R233)
  | tsx
  -- TXA (R234)
  | txa
  -- TXS (R235)
  | txs
  -- TYA (R236)
  | tya
  -- CLC (R250)
  | clc
  -- CLD (R251)
  | cld
  -- CLI (R252)
  | cli
  -- CLV (R253)
  | clv
  -- SEC (R254)
  | sec
  -- SED (R255)
  | sed
  -- SEI (R256)
  | sei
  -- NOP (R257)
  | nop
  -- the sentinel "no instruction" (R85), of any of its opcodes: DESIGN CHOICE (log 17, safe)
  | sentinel (opcode : Byte)
  deriving DecidableEq, Repr

end Sys2Proof
end

