-- ==== Sys2Proof/Machine/Forms.lean ====
section
/-! DEFINITION. The operand forms, and the kind, operand, mode, length and operand bytes of each instruction
(30_encoding.md R81, R82, R84, 41_addressing.md R135). -/

namespace Sys2Proof

open Sys2Proof.Machine (hi lo)

/-- An operand whose mode has an effective address (R81, R123 to R133), with its operand bytes. -/
inductive MemOperand where
  | imm (imm8 : Byte) | rel (off8 : Byte)
  | zp (zp8 : Byte) | zpx (zp8 : Byte) | zpy (zp8 : Byte) | izx (zp8 : Byte) | izy (zp8 : Byte)
  | abs (abs16 : Word) | abx (abs16 : Word) | aby (abs16 : Word) | ind (abs16 : Word)
  deriving DecidableEq, Repr

/-- The operand of an instruction: none for the sentinel, none for Implicit, A for Accumulator, or one with an address. -/
inductive Operand where
  | noOperand | implied | accumulator | mem (m : MemOperand)
  deriving DecidableEq, Repr

/-- The mode of an operand with an address. -/
def MemOperand.mode : MemOperand → Mode
  | .imm _ => .imm
  | .rel _ => .rel
  | .zp _ => .zp
  | .zpx _ => .zpx
  | .zpy _ => .zpy
  | .izx _ => .izx
  | .izy _ => .izy
  | .abs _ => .abs
  | .abx _ => .abx
  | .aby _ => .aby
  | .ind _ => .ind

/-- The mode of an operand. -/
def Operand.mode : Operand → Mode
  | .noOperand => .noMode
  | .implied => .imp
  | .accumulator => .acc
  | .mem m => m.mode

/-- `instruction_length(mode)` (R81). The spec gives "no addressing mode" no length: its opcode byte alone is read.
DESIGN CHOICE (log 17, safe). -/
def Mode.length : Mode → Nat
  | .imp | .acc => 1
  | .imm | .rel | .zp | .zpx | .zpy | .izx | .izy => 2
  | .abs | .abx | .aby | .ind => 3
  | .noMode => 1

/-- The operand bytes in memory order: abs16 low byte first (R81, R82). -/
def MemOperand.bytes : MemOperand → List Byte
  | .imm b | .rel b | .zp b | .zpx b | .zpy b | .izx b | .izy b => [b]
  | .abs w | .abx w | .aby w | .ind w => [lo w, hi w]

/-- The raw operand bytes of an operand (R39, R102). -/
def Operand.bytes : Operand → List Byte
  | .noOperand | .implied | .accumulator => []
  | .mem m => m.bytes

/-- The kind of an instruction (R84, R92). -/
def Instr.kind : Instr → Kind
  | .adcImm _ => .adc
  | .adcZp _ => .adc
  | .adcZpx _ => .adc
  | .adcAbs _ => .adc
  | .adcAbx _ => .adc
  | .adcAby _ => .adc
  | .adcIzx _ => .adc
  | .adcIzy _ => .adc
  | .sbcImm _ => .sbc
  | .sbcZp _ => .sbc
  | .sbcZpx _ => .sbc
  | .sbcAbs _ => .sbc
  | .sbcAbx _ => .sbc
  | .sbcAby _ => .sbc
  | .sbcIzx _ => .sbc
  | .sbcIzy _ => .sbc
  | .andImm _ => .and
  | .andZp _ => .and
  | .andZpx _ => .and
  | .andAbs _ => .and
  | .andAbx _ => .and
  | .andAby _ => .and
  | .andIzx _ => .and
  | .andIzy _ => .and
  | .oraImm _ => .ora
  | .oraZp _ => .ora
  | .oraZpx _ => .ora
  | .oraAbs _ => .ora
  | .oraAbx _ => .ora
  | .oraAby _ => .ora
  | .oraIzx _ => .ora
  | .oraIzy _ => .ora
  | .eorImm _ => .eor
  | .eorZp _ => .eor
  | .eorZpx _ => .eor
  | .eorAbs _ => .eor
  | .eorAbx _ => .eor
  | .eorAby _ => .eor
  | .eorIzx _ => .eor
  | .eorIzy _ => .eor
  | .bitZp _ => .bit
  | .bitAbs _ => .bit
  | .cmpImm _ => .cmp
  | .cmpZp _ => .cmp
  | .cmpZpx _ => .cmp
  | .cmpAbs _ => .cmp
  | .cmpAbx _ => .cmp
  | .cmpAby _ => .cmp
  | .cmpIzx _ => .cmp
  | .cmpIzy _ => .cmp
  | .cpxImm _ => .cpx
  | .cpxZp _ => .cpx
  | .cpxAbs _ => .cpx
  | .cpyImm _ => .cpy
  | .cpyZp _ => .cpy
  | .cpyAbs _ => .cpy
  | .aslAcc => .asl
  | .aslZp _ => .asl
  | .aslZpx _ => .asl
  | .aslAbs _ => .asl
  | .aslAbx _ => .asl
  | .lsrAcc => .lsr
  | .lsrZp _ => .lsr
  | .lsrZpx _ => .lsr
  | .lsrAbs _ => .lsr
  | .lsrAbx _ => .lsr
  | .rolAcc => .rol
  | .rolZp _ => .rol
  | .rolZpx _ => .rol
  | .rolAbs _ => .rol
  | .rolAbx _ => .rol
  | .rorAcc => .ror
  | .rorZp _ => .ror
  | .rorZpx _ => .ror
  | .rorAbs _ => .ror
  | .rorAbx _ => .ror
  | .incZp _ => .inc
  | .incZpx _ => .inc
  | .incAbs _ => .inc
  | .incAbx _ => .inc
  | .decZp _ => .dec
  | .decZpx _ => .dec
  | .decAbs _ => .dec
  | .decAbx _ => .dec
  | .inx => .inx
  | .iny => .iny
  | .dex => .dex
  | .dey => .dey
  | .bpl _ => .bpl
  | .bmi _ => .bmi
  | .bvc _ => .bvc
  | .bvs _ => .bvs
  | .bcc _ => .bcc
  | .bcs _ => .bcs
  | .bne _ => .bne
  | .beq _ => .beq
  | .jmpAbs _ => .jmp
  | .jmpInd _ => .jmp
  | .jsr _ => .jsr
  | .rts => .rts
  | .rti => .rti
  | .brk => .brk
  | .pha => .pha
  | .php => .php
  | .pla => .pla
  | .plp => .plp
  | .ldaImm _ => .lda
  | .ldaZp _ => .lda
  | .ldaZpx _ => .lda
  | .ldaAbs _ => .lda
  | .ldaAbx _ => .lda
  | .ldaAby _ => .lda
  | .ldaIzx _ => .lda
  | .ldaIzy _ => .lda
  | .ldxImm _ => .ldx
  | .ldxZp _ => .ldx
  | .ldxZpy _ => .ldx
  | .ldxAbs _ => .ldx
  | .ldxAby _ => .ldx
  | .ldyImm _ => .ldy
  | .ldyZp _ => .ldy
  | .ldyZpx _ => .ldy
  | .ldyAbs _ => .ldy
  | .ldyAbx _ => .ldy
  | .staZp _ => .sta
  | .staZpx _ => .sta
  | .staAbs _ => .sta
  | .staAbx _ => .sta
  | .staAby _ => .sta
  | .staIzx _ => .sta
  | .staIzy _ => .sta
  | .stxZp _ => .stx
  | .stxZpy _ => .stx
  | .stxAbs _ => .stx
  | .styZp _ => .sty
  | .styZpx _ => .sty
  | .styAbs _ => .sty
  | .tax => .tax
  | .tay => .tay
  | .tsx => .tsx
  | .txa => .txa
  | .txs => .txs
  | .tya => .tya
  | .clc => .clc
  | .cld => .cld
  | .cli => .cli
  | .clv => .clv
  | .sec => .sec
  | .sed => .sed
  | .sei => .sei
  | .nop => .nop
  | .sentinel _ => .noInstruction

/-- The operand of an instruction, which gives its mode (R84, R135). -/
def Instr.operand : Instr → Operand
  | .adcImm imm => .mem (.imm imm)
  | .adcZp zp => .mem (.zp zp)
  | .adcZpx zp => .mem (.zpx zp)
  | .adcAbs addr => .mem (.abs addr)
  | .adcAbx addr => .mem (.abx addr)
  | .adcAby addr => .mem (.aby addr)
  | .adcIzx zp => .mem (.izx zp)
  | .adcIzy zp => .mem (.izy zp)
  | .sbcImm imm => .mem (.imm imm)
  | .sbcZp zp => .mem (.zp zp)
  | .sbcZpx zp => .mem (.zpx zp)
  | .sbcAbs addr => .mem (.abs addr)
  | .sbcAbx addr => .mem (.abx addr)
  | .sbcAby addr => .mem (.aby addr)
  | .sbcIzx zp => .mem (.izx zp)
  | .sbcIzy zp => .mem (.izy zp)
  | .andImm imm => .mem (.imm imm)
  | .andZp zp => .mem (.zp zp)
  | .andZpx zp => .mem (.zpx zp)
  | .andAbs addr => .mem (.abs addr)
  | .andAbx addr => .mem (.abx addr)
  | .andAby addr => .mem (.aby addr)
  | .andIzx zp => .mem (.izx zp)
  | .andIzy zp => .mem (.izy zp)
  | .oraImm imm => .mem (.imm imm)
  | .oraZp zp => .mem (.zp zp)
  | .oraZpx zp => .mem (.zpx zp)
  | .oraAbs addr => .mem (.abs addr)
  | .oraAbx addr => .mem (.abx addr)
  | .oraAby addr => .mem (.aby addr)
  | .oraIzx zp => .mem (.izx zp)
  | .oraIzy zp => .mem (.izy zp)
  | .eorImm imm => .mem (.imm imm)
  | .eorZp zp => .mem (.zp zp)
  | .eorZpx zp => .mem (.zpx zp)
  | .eorAbs addr => .mem (.abs addr)
  | .eorAbx addr => .mem (.abx addr)
  | .eorAby addr => .mem (.aby addr)
  | .eorIzx zp => .mem (.izx zp)
  | .eorIzy zp => .mem (.izy zp)
  | .bitZp zp => .mem (.zp zp)
  | .bitAbs addr => .mem (.abs addr)
  | .cmpImm imm => .mem (.imm imm)
  | .cmpZp zp => .mem (.zp zp)
  | .cmpZpx zp => .mem (.zpx zp)
  | .cmpAbs addr => .mem (.abs addr)
  | .cmpAbx addr => .mem (.abx addr)
  | .cmpAby addr => .mem (.aby addr)
  | .cmpIzx zp => .mem (.izx zp)
  | .cmpIzy zp => .mem (.izy zp)
  | .cpxImm imm => .mem (.imm imm)
  | .cpxZp zp => .mem (.zp zp)
  | .cpxAbs addr => .mem (.abs addr)
  | .cpyImm imm => .mem (.imm imm)
  | .cpyZp zp => .mem (.zp zp)
  | .cpyAbs addr => .mem (.abs addr)
  | .aslAcc => .accumulator
  | .aslZp zp => .mem (.zp zp)
  | .aslZpx zp => .mem (.zpx zp)
  | .aslAbs addr => .mem (.abs addr)
  | .aslAbx addr => .mem (.abx addr)
  | .lsrAcc => .accumulator
  | .lsrZp zp => .mem (.zp zp)
  | .lsrZpx zp => .mem (.zpx zp)
  | .lsrAbs addr => .mem (.abs addr)
  | .lsrAbx addr => .mem (.abx addr)
  | .rolAcc => .accumulator
  | .rolZp zp => .mem (.zp zp)
  | .rolZpx zp => .mem (.zpx zp)
  | .rolAbs addr => .mem (.abs addr)
  | .rolAbx addr => .mem (.abx addr)
  | .rorAcc => .accumulator
  | .rorZp zp => .mem (.zp zp)
  | .rorZpx zp => .mem (.zpx zp)
  | .rorAbs addr => .mem (.abs addr)
  | .rorAbx addr => .mem (.abx addr)
  | .incZp zp => .mem (.zp zp)
  | .incZpx zp => .mem (.zpx zp)
  | .incAbs addr => .mem (.abs addr)
  | .incAbx addr => .mem (.abx addr)
  | .decZp zp => .mem (.zp zp)
  | .decZpx zp => .mem (.zpx zp)
  | .decAbs addr => .mem (.abs addr)
  | .decAbx addr => .mem (.abx addr)
  | .inx => .implied
  | .iny => .implied
  | .dex => .implied
  | .dey => .implied
  | .bpl off => .mem (.rel off)
  | .bmi off => .mem (.rel off)
  | .bvc off => .mem (.rel off)
  | .bvs off => .mem (.rel off)
  | .bcc off => .mem (.rel off)
  | .bcs off => .mem (.rel off)
  | .bne off => .mem (.rel off)
  | .beq off => .mem (.rel off)
  | .jmpAbs addr => .mem (.abs addr)
  | .jmpInd addr => .mem (.ind addr)
  | .jsr addr => .mem (.abs addr)
  | .rts => .implied
  | .rti => .implied
  | .brk => .implied
  | .pha => .implied
  | .php => .implied
  | .pla => .implied
  | .plp => .implied
  | .ldaImm imm => .mem (.imm imm)
  | .ldaZp zp => .mem (.zp zp)
  | .ldaZpx zp => .mem (.zpx zp)
  | .ldaAbs addr => .mem (.abs addr)
  | .ldaAbx addr => .mem (.abx addr)
  | .ldaAby addr => .mem (.aby addr)
  | .ldaIzx zp => .mem (.izx zp)
  | .ldaIzy zp => .mem (.izy zp)
  | .ldxImm imm => .mem (.imm imm)
  | .ldxZp zp => .mem (.zp zp)
  | .ldxZpy zp => .mem (.zpy zp)
  | .ldxAbs addr => .mem (.abs addr)
  | .ldxAby addr => .mem (.aby addr)
  | .ldyImm imm => .mem (.imm imm)
  | .ldyZp zp => .mem (.zp zp)
  | .ldyZpx zp => .mem (.zpx zp)
  | .ldyAbs addr => .mem (.abs addr)
  | .ldyAbx addr => .mem (.abx addr)
  | .staZp zp => .mem (.zp zp)
  | .staZpx zp => .mem (.zpx zp)
  | .staAbs addr => .mem (.abs addr)
  | .staAbx addr => .mem (.abx addr)
  | .staAby addr => .mem (.aby addr)
  | .staIzx zp => .mem (.izx zp)
  | .staIzy zp => .mem (.izy zp)
  | .stxZp zp => .mem (.zp zp)
  | .stxZpy zp => .mem (.zpy zp)
  | .stxAbs addr => .mem (.abs addr)
  | .styZp zp => .mem (.zp zp)
  | .styZpx zp => .mem (.zpx zp)
  | .styAbs addr => .mem (.abs addr)
  | .tax => .implied
  | .tay => .implied
  | .tsx => .implied
  | .txa => .implied
  | .txs => .implied
  | .tya => .implied
  | .clc => .implied
  | .cld => .implied
  | .cli => .implied
  | .clv => .implied
  | .sec => .implied
  | .sed => .implied
  | .sei => .implied
  | .nop => .implied
  | .sentinel _ => .noOperand

/-- The mode of an instruction. -/
def Instr.mode (i : Instr) : Mode := i.operand.mode

/-- The length of an instruction in bytes (R81). -/
def Instr.length (i : Instr) : Nat := i.mode.length

/-- The 8 kinds the source never names (R86). -/
def unlistedKinds : List Kind := [.and, .ora, .eor, .bit, .inx, .iny, .dex, .dey]

/-- Whether a kind is one the source never names (R86). -/
def Kind.unlisted (k : Kind) : Bool := unlistedKinds.contains k

end Sys2Proof
end

