-- ==== Sys2Proof/WellFormed.lean ====
section
/-! DEFINITION. Which instructions exist: the sentinel only with a sentinel opcode (30_encoding.md R85), and the kinds
the source never names only where they are admitted (R86). Every operand value is legal (R87). -/

namespace Sys2Proof

/-- The 105 opcodes of the sentinel (R85). -/
def sentinelOpcodes : List Byte :=
  [0x02#8, 0x03#8, 0x04#8, 0x07#8, 0x0B#8, 0x0C#8, 0x0F#8, 0x12#8, 0x13#8, 0x14#8, 0x17#8, 0x1A#8, 0x1B#8, 0x1C#8, 0x1F#8]
    ++ [0x22#8, 0x23#8, 0x27#8, 0x2B#8, 0x2F#8, 0x32#8, 0x33#8, 0x34#8, 0x37#8, 0x3A#8, 0x3B#8, 0x3C#8, 0x3F#8, 0x42#8, 0x43#8]
    ++ [0x44#8, 0x47#8, 0x4B#8, 0x4F#8, 0x52#8, 0x53#8, 0x54#8, 0x57#8, 0x5A#8, 0x5B#8, 0x5C#8, 0x5F#8, 0x62#8, 0x63#8, 0x64#8]
    ++ [0x67#8, 0x6B#8, 0x6F#8, 0x72#8, 0x73#8, 0x74#8, 0x77#8, 0x7A#8, 0x7B#8, 0x7C#8, 0x7F#8, 0x80#8, 0x82#8, 0x83#8, 0x87#8]
    ++ [0x89#8, 0x8B#8, 0x8F#8, 0x92#8, 0x93#8, 0x97#8, 0x9B#8, 0x9C#8, 0x9E#8, 0x9F#8, 0xA3#8, 0xA7#8, 0xAB#8, 0xAF#8, 0xB2#8]
    ++ [0xB3#8, 0xB7#8, 0xBB#8, 0xBF#8, 0xC2#8, 0xC3#8, 0xC7#8, 0xCB#8, 0xCF#8, 0xD2#8, 0xD3#8, 0xD4#8, 0xD7#8, 0xDA#8, 0xDB#8]
    ++ [0xDC#8, 0xDF#8, 0xE2#8, 0xE3#8, 0xE7#8, 0xEB#8, 0xEF#8, 0xF2#8, 0xF3#8, 0xF4#8, 0xF7#8, 0xFA#8, 0xFB#8, 0xFC#8, 0xFF#8]

/-- The 30 opcodes of the kinds the source never names (R86). -/
def unlistedOpcodes : List Byte :=
  [0x21#8, 0x25#8, 0x29#8, 0x2D#8, 0x31#8, 0x35#8, 0x39#8, 0x3D#8, 0x01#8, 0x05#8, 0x09#8, 0x0D#8, 0x11#8, 0x15#8, 0x19#8]
    ++ [0x1D#8, 0x41#8, 0x45#8, 0x49#8, 0x4D#8, 0x51#8, 0x55#8, 0x59#8, 0x5D#8, 0x24#8, 0x2C#8, 0xE8#8, 0xC8#8, 0xCA#8, 0x88#8]

/-- A well-formed instruction under `ADMIT_UNLISTED_KINDS = allow`: an instruction of an admitted kind, or the sentinel
with an opcode that decodes to it (R85, R86). -/
def Instr.wf (allow : Bool) : Instr → Bool
  | .sentinel op => sentinelOpcodes.contains op || (!allow && unlistedOpcodes.contains op)
  | i => allow || !i.kind.unlisted

end Sys2Proof
end

