-- ==== Sys2Proof/Decode.lean ====
section
/-! DEFINITION. The opcode ROM of 30_encoding.md R84, the decoder, total on any bytes, and the encoder (30_encoding.md
R80 to R88). -/

namespace Sys2Proof

open Sys2Proof.Machine (cat)

/-- A cell of the opcode ROM: the instruction of an opcode with its operand bytes b1 and b2 (R80, R82). -/
abbrev RomCell := Byte → Byte → Byte → Instr

/-- A cell whose instruction has no operand byte. -/
def cell0 (i : Instr) : RomCell := fun _ _ _ => i
/-- A cell whose instruction takes b1. -/
def cell1 (f : Byte → Instr) : RomCell := fun _ b1 _ => f b1
/-- A cell whose instruction takes abs16 = {b2, b1}. -/
def cell2 (f : Word → Instr) : RomCell := fun _ b1 b2 => f (cat b2 b1)
/-- A cell R84 leaves empty: the sentinel (R85). -/
def noCell : RomCell := fun op _ _ => .sentinel op

/-- Row 0 of R84: the opcodes 0x00 to 0x0F. -/
def romRow0 : List RomCell :=
  [cell0 .brk, cell1 .oraIzx, noCell, noCell, noCell, cell1 .oraZp, cell1 .aslZp, noCell]
    ++ [cell0 .php, cell1 .oraImm, cell0 .aslAcc, noCell, noCell, cell2 .oraAbs, cell2 .aslAbs, noCell]

/-- Row 1 of R84: the opcodes 0x10 to 0x1F. -/
def romRow1 : List RomCell :=
  [cell1 .bpl, cell1 .oraIzy, noCell, noCell, noCell, cell1 .oraZpx, cell1 .aslZpx, noCell]
    ++ [cell0 .clc, cell2 .oraAby, noCell, noCell, noCell, cell2 .oraAbx, cell2 .aslAbx, noCell]

/-- Row 2 of R84: the opcodes 0x20 to 0x2F. -/
def romRow2 : List RomCell :=
  [cell2 .jsr, cell1 .andIzx, noCell, noCell, cell1 .bitZp, cell1 .andZp, cell1 .rolZp, noCell]
    ++ [cell0 .plp, cell1 .andImm, cell0 .rolAcc, noCell, cell2 .bitAbs, cell2 .andAbs, cell2 .rolAbs, noCell]

/-- Row 3 of R84: the opcodes 0x30 to 0x3F. -/
def romRow3 : List RomCell :=
  [cell1 .bmi, cell1 .andIzy, noCell, noCell, noCell, cell1 .andZpx, cell1 .rolZpx, noCell]
    ++ [cell0 .sec, cell2 .andAby, noCell, noCell, noCell, cell2 .andAbx, cell2 .rolAbx, noCell]

/-- Row 4 of R84: the opcodes 0x40 to 0x4F. -/
def romRow4 : List RomCell :=
  [cell0 .rti, cell1 .eorIzx, noCell, noCell, noCell, cell1 .eorZp, cell1 .lsrZp, noCell]
    ++ [cell0 .pha, cell1 .eorImm, cell0 .lsrAcc, noCell, cell2 .jmpAbs, cell2 .eorAbs, cell2 .lsrAbs, noCell]

/-- Row 5 of R84: the opcodes 0x50 to 0x5F. -/
def romRow5 : List RomCell :=
  [cell1 .bvc, cell1 .eorIzy, noCell, noCell, noCell, cell1 .eorZpx, cell1 .lsrZpx, noCell]
    ++ [cell0 .cli, cell2 .eorAby, noCell, noCell, noCell, cell2 .eorAbx, cell2 .lsrAbx, noCell]

/-- Row 6 of R84: the opcodes 0x60 to 0x6F. -/
def romRow6 : List RomCell :=
  [cell0 .rts, cell1 .adcIzx, noCell, noCell, noCell, cell1 .adcZp, cell1 .rorZp, noCell]
    ++ [cell0 .pla, cell1 .adcImm, cell0 .rorAcc, noCell, cell2 .jmpInd, cell2 .adcAbs, cell2 .rorAbs, noCell]

/-- Row 7 of R84: the opcodes 0x70 to 0x7F. -/
def romRow7 : List RomCell :=
  [cell1 .bvs, cell1 .adcIzy, noCell, noCell, noCell, cell1 .adcZpx, cell1 .rorZpx, noCell]
    ++ [cell0 .sei, cell2 .adcAby, noCell, noCell, noCell, cell2 .adcAbx, cell2 .rorAbx, noCell]

/-- Row 8 of R84: the opcodes 0x80 to 0x8F. -/
def romRow8 : List RomCell :=
  [noCell, cell1 .staIzx, noCell, noCell, cell1 .styZp, cell1 .staZp, cell1 .stxZp, noCell]
    ++ [cell0 .dey, noCell, cell0 .txa, noCell, cell2 .styAbs, cell2 .staAbs, cell2 .stxAbs, noCell]

/-- Row 9 of R84: the opcodes 0x90 to 0x9F. -/
def romRow9 : List RomCell :=
  [cell1 .bcc, cell1 .staIzy, noCell, noCell, cell1 .styZpx, cell1 .staZpx, cell1 .stxZpy, noCell]
    ++ [cell0 .tya, cell2 .staAby, cell0 .txs, noCell, noCell, cell2 .staAbx, noCell, noCell]

/-- Row A of R84: the opcodes 0xA0 to 0xAF. -/
def romRowA : List RomCell :=
  [cell1 .ldyImm, cell1 .ldaIzx, cell1 .ldxImm, noCell, cell1 .ldyZp, cell1 .ldaZp, cell1 .ldxZp, noCell]
    ++ [cell0 .tay, cell1 .ldaImm, cell0 .tax, noCell, cell2 .ldyAbs, cell2 .ldaAbs, cell2 .ldxAbs, noCell]

/-- Row B of R84: the opcodes 0xB0 to 0xBF. -/
def romRowB : List RomCell :=
  [cell1 .bcs, cell1 .ldaIzy, noCell, noCell, cell1 .ldyZpx, cell1 .ldaZpx, cell1 .ldxZpy, noCell]
    ++ [cell0 .clv, cell2 .ldaAby, cell0 .tsx, noCell, cell2 .ldyAbx, cell2 .ldaAbx, cell2 .ldxAby, noCell]

/-- Row C of R84: the opcodes 0xC0 to 0xCF. -/
def romRowC : List RomCell :=
  [cell1 .cpyImm, cell1 .cmpIzx, noCell, noCell, cell1 .cpyZp, cell1 .cmpZp, cell1 .decZp, noCell]
    ++ [cell0 .iny, cell1 .cmpImm, cell0 .dex, noCell, cell2 .cpyAbs, cell2 .cmpAbs, cell2 .decAbs, noCell]

/-- Row D of R84: the opcodes 0xD0 to 0xDF. -/
def romRowD : List RomCell :=
  [cell1 .bne, cell1 .cmpIzy, noCell, noCell, noCell, cell1 .cmpZpx, cell1 .decZpx, noCell]
    ++ [cell0 .cld, cell2 .cmpAby, noCell, noCell, noCell, cell2 .cmpAbx, cell2 .decAbx, noCell]

/-- Row E of R84: the opcodes 0xE0 to 0xEF. -/
def romRowE : List RomCell :=
  [cell1 .cpxImm, cell1 .sbcIzx, noCell, noCell, cell1 .cpxZp, cell1 .sbcZp, cell1 .incZp, noCell]
    ++ [cell0 .inx, cell1 .sbcImm, cell0 .nop, noCell, cell2 .cpxAbs, cell2 .sbcAbs, cell2 .incAbs, noCell]

/-- Row F of R84: the opcodes 0xF0 to 0xFF. -/
def romRowF : List RomCell :=
  [cell1 .beq, cell1 .sbcIzy, noCell, noCell, noCell, cell1 .sbcZpx, cell1 .incZpx, noCell]
    ++ [cell0 .sed, cell2 .sbcAby, noCell, noCell, noCell, cell2 .sbcAbx, cell2 .incAbx, noCell]

/-- The opcode ROM, the table of R84: row = high nibble, column = low nibble. -/
def opcodeRom : List (List RomCell) :=
  [romRow0, romRow1, romRow2, romRow3, romRow4, romRow5, romRow6, romRow7]
    ++ [romRow8, romRow9, romRowA, romRowB, romRowC, romRowD, romRowE, romRowF]

/-- The ROM's cell for an opcode, read with its operand bytes. -/
def romLookup (op b1 b2 : Byte) : Instr :=
  ((opcodeRom.getD (op.toNat / 16) []).getD (op.toNat % 16) noCell) op b1 b2

/-- Decoding an opcode byte and the two bytes after it, total on all 256 opcodes (R83). With `ADMIT_UNLISTED_KINDS`
false the kinds the source never names decode to the sentinel (R86). Operand bytes an instruction does not have are
not looked at. -/
def decodeOp (allow : Bool) (op b1 b2 : Byte) : Instr :=
  let i := romLookup op b1 b2
  if i.kind.unlisted && !allow then .sentinel op else i

/-- Why a byte list does not decode: it ends before the opcode byte or before the operand bytes of its opcode. -/
inductive DecodeError where
  | noOpcodeByte
  | missingOperandByte (opcode : Byte)
  deriving DecidableEq, Repr

/-- The decoder on a list of bytes: the first instruction and the bytes after it (R80, R81). -/
def decode (allow : Bool) : List Byte → Except DecodeError (Instr × List Byte)
  | [] => .error .noOpcodeByte
  | op :: rest =>
    let operandBytes := (decodeOp allow op 0 0).length - 1
    if rest.length < operandBytes then .error (.missingOperandByte op)
    else .ok (decodeOp allow op (rest.getD 0 0) (rest.getD 1 0), rest.drop operandBytes)

/-- The opcode byte of an instruction, from its rule's Encoding line (R84). -/
def Instr.opcode : Instr → Byte
  | .adcImm _ => 0x69#8
  | .adcZp _ => 0x65#8
  | .adcZpx _ => 0x75#8
  | .adcAbs _ => 0x6D#8
  | .adcAbx _ => 0x7D#8
  | .adcAby _ => 0x79#8
  | .adcIzx _ => 0x61#8
  | .adcIzy _ => 0x71#8
  | .sbcImm _ => 0xE9#8
  | .sbcZp _ => 0xE5#8
  | .sbcZpx _ => 0xF5#8
  | .sbcAbs _ => 0xED#8
  | .sbcAbx _ => 0xFD#8
  | .sbcAby _ => 0xF9#8
  | .sbcIzx _ => 0xE1#8
  | .sbcIzy _ => 0xF1#8
  | .andImm _ => 0x29#8
  | .andZp _ => 0x25#8
  | .andZpx _ => 0x35#8
  | .andAbs _ => 0x2D#8
  | .andAbx _ => 0x3D#8
  | .andAby _ => 0x39#8
  | .andIzx _ => 0x21#8
  | .andIzy _ => 0x31#8
  | .oraImm _ => 0x09#8
  | .oraZp _ => 0x05#8
  | .oraZpx _ => 0x15#8
  | .oraAbs _ => 0x0D#8
  | .oraAbx _ => 0x1D#8
  | .oraAby _ => 0x19#8
  | .oraIzx _ => 0x01#8
  | .oraIzy _ => 0x11#8
  | .eorImm _ => 0x49#8
  | .eorZp _ => 0x45#8
  | .eorZpx _ => 0x55#8
  | .eorAbs _ => 0x4D#8
  | .eorAbx _ => 0x5D#8
  | .eorAby _ => 0x59#8
  | .eorIzx _ => 0x41#8
  | .eorIzy _ => 0x51#8
  | .bitZp _ => 0x24#8
  | .bitAbs _ => 0x2C#8
  | .cmpImm _ => 0xC9#8
  | .cmpZp _ => 0xC5#8
  | .cmpZpx _ => 0xD5#8
  | .cmpAbs _ => 0xCD#8
  | .cmpAbx _ => 0xDD#8
  | .cmpAby _ => 0xD9#8
  | .cmpIzx _ => 0xC1#8
  | .cmpIzy _ => 0xD1#8
  | .cpxImm _ => 0xE0#8
  | .cpxZp _ => 0xE4#8
  | .cpxAbs _ => 0xEC#8
  | .cpyImm _ => 0xC0#8
  | .cpyZp _ => 0xC4#8
  | .cpyAbs _ => 0xCC#8
  | .aslAcc => 0x0A#8
  | .aslZp _ => 0x06#8
  | .aslZpx _ => 0x16#8
  | .aslAbs _ => 0x0E#8
  | .aslAbx _ => 0x1E#8
  | .lsrAcc => 0x4A#8
  | .lsrZp _ => 0x46#8
  | .lsrZpx _ => 0x56#8
  | .lsrAbs _ => 0x4E#8
  | .lsrAbx _ => 0x5E#8
  | .rolAcc => 0x2A#8
  | .rolZp _ => 0x26#8
  | .rolZpx _ => 0x36#8
  | .rolAbs _ => 0x2E#8
  | .rolAbx _ => 0x3E#8
  | .rorAcc => 0x6A#8
  | .rorZp _ => 0x66#8
  | .rorZpx _ => 0x76#8
  | .rorAbs _ => 0x6E#8
  | .rorAbx _ => 0x7E#8
  | .incZp _ => 0xE6#8
  | .incZpx _ => 0xF6#8
  | .incAbs _ => 0xEE#8
  | .incAbx _ => 0xFE#8
  | .decZp _ => 0xC6#8
  | .decZpx _ => 0xD6#8
  | .decAbs _ => 0xCE#8
  | .decAbx _ => 0xDE#8
  | .inx => 0xE8#8
  | .iny => 0xC8#8
  | .dex => 0xCA#8
  | .dey => 0x88#8
  | .bpl _ => 0x10#8
  | .bmi _ => 0x30#8
  | .bvc _ => 0x50#8
  | .bvs _ => 0x70#8
  | .bcc _ => 0x90#8
  | .bcs _ => 0xB0#8
  | .bne _ => 0xD0#8
  | .beq _ => 0xF0#8
  | .jmpAbs _ => 0x4C#8
  | .jmpInd _ => 0x6C#8
  | .jsr _ => 0x20#8
  | .rts => 0x60#8
  | .rti => 0x40#8
  | .brk => 0x00#8
  | .pha => 0x48#8
  | .php => 0x08#8
  | .pla => 0x68#8
  | .plp => 0x28#8
  | .ldaImm _ => 0xA9#8
  | .ldaZp _ => 0xA5#8
  | .ldaZpx _ => 0xB5#8
  | .ldaAbs _ => 0xAD#8
  | .ldaAbx _ => 0xBD#8
  | .ldaAby _ => 0xB9#8
  | .ldaIzx _ => 0xA1#8
  | .ldaIzy _ => 0xB1#8
  | .ldxImm _ => 0xA2#8
  | .ldxZp _ => 0xA6#8
  | .ldxZpy _ => 0xB6#8
  | .ldxAbs _ => 0xAE#8
  | .ldxAby _ => 0xBE#8
  | .ldyImm _ => 0xA0#8
  | .ldyZp _ => 0xA4#8
  | .ldyZpx _ => 0xB4#8
  | .ldyAbs _ => 0xAC#8
  | .ldyAbx _ => 0xBC#8
  | .staZp _ => 0x85#8
  | .staZpx _ => 0x95#8
  | .staAbs _ => 0x8D#8
  | .staAbx _ => 0x9D#8
  | .staAby _ => 0x99#8
  | .staIzx _ => 0x81#8
  | .staIzy _ => 0x91#8
  | .stxZp _ => 0x86#8
  | .stxZpy _ => 0x96#8
  | .stxAbs _ => 0x8E#8
  | .styZp _ => 0x84#8
  | .styZpx _ => 0x94#8
  | .styAbs _ => 0x8C#8
  | .tax => 0xAA#8
  | .tay => 0xA8#8
  | .tsx => 0xBA#8
  | .txa => 0x8A#8
  | .txs => 0x9A#8
  | .tya => 0x98#8
  | .clc => 0x18#8
  | .cld => 0xD8#8
  | .cli => 0x58#8
  | .clv => 0xB8#8
  | .sec => 0x38#8
  | .sed => 0xF8#8
  | .sei => 0x78#8
  | .nop => 0xEA#8
  | .sentinel op => op

/-- The bytes of an instruction: the opcode byte, then the operand bytes (R80). -/
def encode (i : Instr) : List Byte := i.opcode :: i.operand.bytes

/-- The bits of w from bit 8 * n up, as a byte: byte n of an instruction whose first byte is bits 7..0. -/
def tableByte (w n : Nat) : Byte := BitVec.ofNat 8 (w / 2 ^ (8 * n))

/-- The instruction the decoder reads from the bits w of an opcode-table row of nbits bits, the bits above being 0; the
longest instruction has three bytes. The parameters are the defaults. -/
def decodeTableWord (nbits w : Nat) : Option Instr :=
  let v := w % 2 ^ nbits
  match decode true [tableByte v 0, tableByte v 1, tableByte v 2] with
  | .ok (i, _) => some i
  | .error _ => none

end Sys2Proof
end

