-- ==== Sys2Proof/Machine/Params.lean ====
section
/-! DEFINITION. The default of every parameter of 00_scope.md R8, and the default cost tables of
30_encoding.md R93 and R94. -/

namespace Sys2Proof.Machine

/-- The kind costs of R94. -/
def defaultKindRows : List (Nat × List Kind) :=
  [(1, [.jmp]),
   (2, [.adc, .and, .asl, .bcc, .bcs, .beq, .bit, .bmi, .bne, .bpl, .bvc, .bvs, .clc, .cld, .cli, .clv]
     ++ [.cmp, .cpx, .cpy, .dex, .dey, .eor, .inx, .iny, .lda, .ldx, .ldy, .lsr, .nop, .ora, .rol, .ror]
     ++ [.sbc, .sec, .sed, .sei, .sta, .stx, .sty, .tax, .tay, .tsx, .txa, .txs, .tya]),
   (3, [.pha, .php]),
   (4, [.dec, .inc, .jsr, .pla, .plp]),
   (6, [.rti, .rts]),
   (7, [.brk])]

/-- The mode costs of R93. -/
def defaultModeRows : List (Nat × List Mode) :=
  [(0, [.imp, .acc, .imm]),
   (0, [.rel]),
   (1, [.zp]),
   (2, [.zpx, .zpy]),
   (2, [.abs]),
   (2, [.abx, .aby]),
   (3, [.izy]),
   (4, [.izx]),
   (4, [.ind])]

/-- `RESET_REGS` all zero (R8, D22). -/
def defaultResetRegs : ResetRegs :=
  { a := 0x00#8, x := 0x00#8, y := 0x00#8,
    carry := false, zero := false, decimal := false, brk := false, overflow := false, negative := false }

/-- R8's defaults. `PRG_BANKS` has none: DESIGN CHOICE (log 2, unsafe) one bank, the case the spec's vectors take. -/
def defaultConfig : Config :=
  { prgBanks := .one,
    admitUnlistedKinds := true,
    storeSetsNZ := false,
    jmpIndPageWrap := true,
    beqPagePenalty := true,
    branchPageBase := .opcode,
    brkPushOffset := 2,
    brkSetsI := false,
    intSetsI := true,
    resetRegs := defaultResetRegs,
    cycleTable := { kindRows := defaultKindRows, modeRows := defaultModeRows },
    intEntryCycles := 7 }

end Sys2Proof.Machine
end

