-- ==== Sys2Proof/Machine/State.lean ====
section
/-! DEFINITION. The machine's state, its fault and refusal reasons, and the state after reset
(10_state.md, 60_exceptions.md R260 to R262, 70_reset_and_hazards.md R300 and R301). -/

namespace Sys2Proof.Machine

/-- The faults of the core: the one fatal event of 60_exceptions.md R260. -/
inductive Fault where
  /-- FatalDecode(pc, opcode) (R261). Raised by `step` in a state whose `run` is Halted with it (R262: the core
  takes no further step); safe, the spec itself makes a halted run a fault. -/
  | fatalDecode (pc : Word) (opcode : Byte)
  deriving DecidableEq, Repr

/-- Why the model has no meaning for what it is asked. No instruction is refused. -/
inductive Refusal where
  /-- An instruction without a meaning, in `exec`'s arm only; safe. No arm raises it now. -/
  | notModelled (mnemonic : String)
  /-- Raised by the host's move `load` on an image that is not one or two PRG banks (R54, R303, U10); safe, no run
  exists on such an image. -/
  | badImage (size : Nat)
  /-- Raised by the host's move `load` once the reset sequence has run (R41, R316, U9); safe, the host has no such
  move. -/
  | loadDuringRun
  /-- Raised by the host's move `reset` under a cost table or entry cost that gives a cost of 0 (R306, U11); safe,
  the spec does not allow such a setting. -/
  | costOfZero
  deriving DecidableEq, Repr

/-- The controller's state `run` (10_state.md R38, 70 R300). -/
inductive RunState where
  | reset
  | running
  | halted (f : Fault)
  | stopped
  deriving DecidableEq, Repr

/-- Internal RAM and PRG ROM: (location, byte) pairs in canonical form (`Memory.wf`), where a location is what an
address reaches through the map (`locate`). DESIGN CHOICE (log 12, safe): the mirrors of a byte are one location. -/
abbrev Memory := List Host.Cell

/-- Everything the spec gives the machine (10_state.md R20, R38; 20_memory.md R52, R70; 00_scope.md R8). -/
structure State where
  /-- A, the accumulator (R21). -/
  a : Byte
  /-- X (R22). -/
  x : Byte
  /-- Y (R23). -/
  y : Byte
  /-- S, the stack pointer (R24). -/
  sp : Byte
  /-- P, the status register: bits 0 to 7 are C Z I D B U V N (R26). -/
  p : Byte
  /-- PC (R35). -/
  pc : Word
  /-- The elapsed-cycle counter (R38, R275). -/
  cycles : Nat
  /-- The cycles owed (R38, R306). -/
  owed : Nat
  /-- The NMI request latch (R38, R265). -/
  nmiPending : Bool
  /-- The level of the IRQ line, an input (R38, R266). -/
  irqLine : Bool
  /-- The controller's state (R38, R300). -/
  run : RunState
  /-- Internal RAM and PRG ROM (R52 to R56). -/
  mem : Memory
  /-- The parameters of R8; no step writes them (log 1). -/
  cfg : Config
  deriving DecidableEq, Repr

/-- The machine right after reset (R42, R301, R302), with R8's default parameters and no image loaded.
A, X, Y and the bits C, Z, D, B, V, N are `RESET_REGS`: DESIGN CHOICE (log 5, unsafe). The reset vector of the empty
image reads 0x0000: DESIGN CHOICE (log 4, unsafe). The IRQ line is low: DESIGN CHOICE (log 6, unsafe). -/
def State.reset : State :=
  { a := 0x00#8, x := 0x00#8, y := 0x00#8, sp := 0xFD#8, p := 0x24#8, pc := 0x0000#16,
    cycles := 7, owed := 0, nmiPending := false, irqLine := false, run := .running,
    mem := [], cfg := defaultConfig }

end Sys2Proof.Machine
end

