-- ==== Sys2Proof/Machine/Flags.lean ====
section
/-! DEFINITION. The status register: reading and writing one flag, SetZN, and the flag formulas of the ALU
(10_state.md R26 to R37, 42_alu.md R151 and R152). -/

namespace Sys2Proof.Machine

/-- `P.C` (R27). -/
def State.carry (s : State) : Bool := s.p.getLsbD 0
/-- `P.Z` (R28). -/
def State.zero (s : State) : Bool := s.p.getLsbD 1
/-- `P.I` (R29). -/
def State.interruptDisable (s : State) : Bool := s.p.getLsbD 2
/-- `P.D` (R30). -/
def State.decimal (s : State) : Bool := s.p.getLsbD 3
/-- `P.B`, a stored bit (R31). -/
def State.brk (s : State) : Bool := s.p.getLsbD 4
/-- `P.U` (R32). -/
def State.unused (s : State) : Bool := s.p.getLsbD 5
/-- `P.V` (R33). -/
def State.overflow (s : State) : Bool := s.p.getLsbD 6
/-- `P.N` (R34). -/
def State.negative (s : State) : Bool := s.p.getLsbD 7

/-- `P.C <- b`. -/
def setC (b : Bool) (s : State) : State := { s with p := setBit 0 b s.p }
/-- `P.Z <- b`. -/
def setZ (b : Bool) (s : State) : State := { s with p := setBit 1 b s.p }
/-- `P.I <- b`. -/
def setI (b : Bool) (s : State) : State := { s with p := setBit 2 b s.p }
/-- `P.D <- b`. -/
def setD (b : Bool) (s : State) : State := { s with p := setBit 3 b s.p }
/-- `P.B <- b`. -/
def setB (b : Bool) (s : State) : State := { s with p := setBit 4 b s.p }
/-- `P.V <- b`. -/
def setV (b : Bool) (s : State) : State := { s with p := setBit 6 b s.p }
/-- `P.N <- b`. -/
def setN (b : Bool) (s : State) : State := { s with p := setBit 7 b s.p }

/-- `SetZN(v)`: `P.Z <- (v = 0); P.N <- v[7]` (R37). -/
def setZN (v : Byte) (s : State) : State := setN (v.getLsbD 7) (setZ (v == 0#8) s)

/-- The exact sum `A + m + P.C`, 0 to 511, not wrapped (R151). -/
def carrySum (a m : Byte) (c : Bool) : Nat := a.toNat + m.toNat + c.toNat

/-- `((~(A ^ m) & (A ^ r) & 0x80) != 0)` (R33, R151). -/
def signedOverflow (a m r : Byte) : Bool := (~~~(a ^^^ m) &&& (a ^^^ r) &&& 0x80#8) != 0#8

/-- `A + m + P.C` into A, with C, V, Z and N (R151). `P.D` plays no part (R160). -/
def addWithCarry (m : Byte) (s : State) : State :=
  let sum := carrySum s.a m s.carry
  let r := BitVec.ofNat 8 sum
  setZN r { setV (signedOverflow s.a m r) (setC (decide (sum > 0xFF)) s) with a := r }

/-- `P.C <- (reg >= m); SetZN(reg -8 m)` (R157). -/
def compareFlags (reg m : Byte) (s : State) : State :=
  setZN (reg - m) (setC (decide (reg.toNat ≥ m.toNat)) s)

/-- BIT's flags: Z from `A & m`, N and V from bits 7 and 6 of m (R156). -/
def bitFlags (m : Byte) (s : State) : State :=
  setV (m.getLsbD 6) (setN (m.getLsbD 7) (setZ ((s.a &&& m) == 0#8) s))

end Sys2Proof.Machine
end

