-- ==== Sys2Proof/Machine/Ops.lean ====
section
/-! DEFINITION. The named operations over memory and the stack, and taking and leaving an exception
(20_memory.md R50 to R59, 10_state.md R24 and R25, 44_control.md R203 and R204, 60_exceptions.md R269). -/

namespace Sys2Proof.Machine

/-- What a location that `mem` does not list reads as. DESIGN CHOICE (log 3, unsafe) for internal RAM, whose contents
`RAM_INIT` the spec leaves OPEN (R70, D23); DESIGN CHOICE (log 4, unsafe) for PRG, the empty image. -/
def unlisted (_loc : Nat) : Byte := 0x00#8

/-- The byte at a location. -/
def Memory.get : Memory → Nat → Byte
  | [], k => unlisted k
  | (k', v) :: rest, k => if k' = k then v else Memory.get rest k

/-- The list without its entries for a location. -/
def Memory.erase : Memory → Nat → Memory
  | [], _ => []
  | (k', v) :: rest, k => if k' = k then Memory.erase rest k else (k', v) :: Memory.erase rest k

/-- The list with an entry put before the first larger location. -/
def Memory.insert : Memory → Nat → Byte → Memory
  | [], k, v => [(k, v)]
  | (k', v') :: rest, k, v => if k < k' then (k, v) :: (k', v') :: rest else (k', v') :: Memory.insert rest k v

/-- Write a byte at a location, keeping the canonical form: a byte equal to what an unlisted location reads as is not
listed. -/
def Memory.set (m : Memory) (k : Nat) (v : Byte) : Memory :=
  if v = unlisted k then m.erase k else (m.erase k).insert k v

/-- The canonical form: locations strictly rising, and no entry equal to what an unlisted location reads as. -/
def Memory.wf : Memory → Bool
  | [] => true
  | (k, v) :: rest => v != unlisted k && rest.all (fun c => decide (k < c.1)) && Memory.wf rest

/-- `prg_offset(a)` for `a >= 0x8000` (R54). -/
def prgOffset (b : Banks) (a : Word) : Nat :=
  match b with
  | .one => (a.toNat - 0x8000) % 0x4000
  | .two => a.toNat - 0x8000

/-- The location an address reaches (R52): `RAM[a & 0x07FF]` is location `a & 0x07FF` (R53), `PRG[o]` is location
`0x8000 + o` (R54), and an unmapped address reaches none (R56). -/
def locate (b : Banks) (a : Word) : Option Nat :=
  if a.toNat < 0x2000 then some (a.toNat % 0x0800)
  else if a.toNat < 0x8000 then none
  else some (0x8000 + prgOffset b a)

/-- The bytes of PRG ROM: one or two banks of 16 KB (R54). -/
def prgSize : Banks → Nat
  | .one => 0x4000
  | .two => 0x8000

/-- Whether a number is a location of the map: a RAM byte or a PRG byte (R52). -/
def isLocation (b : Banks) (k : Nat) : Bool :=
  decide (k < 0x0800) || (decide (0x8000 ≤ k) && decide (k < 0x8000 + prgSize b))

/-- Every entry is a location of the map. -/
def Memory.inMap (b : Banks) (m : Memory) : Bool := m.all (fun c => isLocation b c.1)

/-- `MemRead(addr, 1)` (R51, R53 to R56). -/
def memRead (s : State) (a : Word) : Byte :=
  match locate s.cfg.prgBanks a with
  | none => 0x00#8
  | some k => s.mem.get k

/-- `MemWrite(addr, 1, v)` (R51, R53 to R56). -/
def memWrite (a : Word) (v : Byte) (s : State) : State :=
  match locate s.cfg.prgBanks a with
  | none => s
  | some k => { s with mem := s.mem.set k v }

/-- `MemRead16(addr)`: low byte at addr, high byte at addr + 1 modulo 65536 (R59). -/
def memRead16 (s : State) (a : Word) : Word := cat (memRead s (a + 1)) (memRead s a)

/-- The stack address `0x0100 + S` (R24). -/
def stackAddr (sp : Byte) : Word := 0x0100#16 + zext16 sp

/-- `Push8(v)`: write, then decrement S (R24). -/
def push8 (v : Byte) (s : State) : State :=
  let t := memWrite (stackAddr s.sp) v s
  { t with sp := s.sp - 1 }

/-- `Push16(w)`: the high byte, then the low byte (R25). -/
def push16 (w : Word) (s : State) : State := push8 (lo w) (push8 (hi w) s)

/-- The byte `Pull8()` returns: S incremented, then read (R24). -/
def pullByte (s : State) : Byte := memRead s (stackAddr (s.sp + 1))

/-- The state `Pull8()` leaves (R24). -/
def afterPull (s : State) : State := { s with sp := s.sp + 1 }

/-- The word `Pull16()` returns: the low byte, then the high byte (R25). -/
def pullWord (s : State) : Word := cat (pullByte (afterPull s)) (pullByte s)

/-- The state `Pull16()` leaves (R25). -/
def afterPull16 (s : State) : State := afterPull (afterPull s)

/-- The NMI vector's address (R64). -/
def nmiVector : Word := 0xFFFA#16
/-- The reset vector's address (R64). -/
def resetVector : Word := 0xFFFC#16
/-- The IRQ and BRK vector's address (R64). -/
def irqVector : Word := 0xFFFE#16

/-- Taking an exception, shared by NMI, IRQ and BRK (R204, R269): push the return address, push the status byte, write
P, load PC from the vector. -/
def enterException (ret : Word) (pushed newP : Byte) (vec : Word) (s : State) : State :=
  let t := push8 pushed (push16 ret s)
  { t with p := newP, pc := memRead16 t vec }

/-- Returning from an exception, RTI's effect (R203): P from the stack with U forced, then PC, with no + 1. -/
def leaveException (s : State) : State :=
  let t := afterPull s
  { afterPull16 t with p := pullByte s ||| 0x20#8, pc := pullWord t }

/-- `InterruptEntry(vec)` for NMI and IRQ (R269, R270); the cost is handed over in `owed` (log 7). -/
def interruptEntry (vec : Word) (s : State) : State :=
  let t := enterException s.pc ((s.p &&& 0xEF#8) ||| 0x20#8)
    (if s.cfg.intSetsI then setBit 2 true s.p else s.p) vec s
  { t with owed := s.cfg.intEntryCycles }

/-- FatalDecode (R261): `run <- Halted(FatalDecode(pc, opcode))`, and nothing else changes. DEDUCED (log 8, safe). -/
def haltFatal (opcode : Byte) (s : State) : State :=
  { s with run := .halted (.fatalDecode s.pc opcode) }

end Sys2Proof.Machine
end

