-- ==== Sys2Proof/Machine/Operands.lean ====
section
/-! DEFINITION. The addressing-mode resolver (41_addressing.md R120 to R134) and Operand() (40_fetch_execute.md R103).
PC is the address of the instruction's opcode byte (00_scope.md R14). -/

namespace Sys2Proof.Machine

/-- A pointer in page 0, whose high byte is read at p + 1 wrapped modulo 256 (R132, R133, D11). -/
def zeroPagePointer (s : State) (p : Byte) : Word :=
  cat (memRead s (zext16 (p + 1))) (memRead s (zext16 p))

/-- The pointer of JMP (ind), with the page wrap `JMP_IND_PAGE_WRAP` (R131, D8). -/
def indirectPointer (s : State) (ptr : Word) : Word :=
  let highAt := if s.cfg.jmpIndPageWrap then cat (hi ptr) (lo ptr + 1) else ptr + 1
  cat (memRead s highAt) (memRead s ptr)

/-- The base an index register is added to, for the modes that may cross a page (R129, R130, R133). -/
def indexBase (m : MemOperand) (s : State) : Option Word :=
  match m with
  | .abx w | .aby w => some w
  | .izy b => some (zeroPagePointer s b)
  | .imm _ | .rel _ | .zp _ | .zpx _ | .zpy _ | .izx _ | .abs _ | .ind _ => none

/-- The effective address (R123 to R133). -/
def ea (m : MemOperand) (s : State) : Word :=
  match m with
  | .imm _ => s.pc + 1
  | .rel _ => s.pc + 1
  | .zp b => zext16 b
  | .zpx b => zext16 (b + s.x)
  | .zpy b => zext16 (b + s.y)
  | .abs w => w
  | .abx w => w + zext16 s.x
  | .aby w => w + zext16 s.y
  | .ind w => indirectPointer s w
  | .izx b => zeroPagePointer s (b + s.x)
  | .izy b => zeroPagePointer s b + zext16 s.y

/-- `crossed`: the effective address of ABX, ABY or IZY lies in another page than its base (R129, R130, R133, R134). -/
def crossed (m : MemOperand) (s : State) : Bool :=
  match indexBase m s with
  | some base => page base != page (ea m s)
  | none => false

/-- `Resolve(mode, PC, raw)`: the effective address, or none, and whether a page was crossed (R120 to R122). -/
def resolve (o : Operand) (s : State) : Option Word × Bool :=
  match o with
  | .noOperand | .implied | .accumulator => (none, false)
  | .mem m => (some (ea m s), crossed m s)

/-- `Operand()` of an instruction whose mode has an address (R103), and the offset byte of a branch (R190). The byte of
an Immediate or Relative operand is the decoded one: DEDUCED (log 10, safe). -/
def operandByte (m : MemOperand) (s : State) : Byte :=
  match m with
  | .imm b => b
  | .rel b => b
  | .zp _ | .zpx _ | .zpy _ | .izx _ | .izy _ | .abs _ | .abx _ | .aby _ | .ind _ => memRead s (ea m s)

end Sys2Proof.Machine
end

