-- ==== Sys2Proof/Machine/Cost.lean ====
section
/-! DEFINITION. Cycle costs and the end of an instruction: base costs (30_encoding.md R93 to R95), conditional extras
(40_fetch_execute.md R105), the PC advance (R104), and the settings that R306 does not allow. -/

namespace Sys2Proof.Machine

/-- The cost of the first row that has x; 0, a cost R306 does not allow, where no row has it. -/
def costOf {α : Type} [DecidableEq α] : List (Nat × List α) → α → Nat
  | [], _ => 0
  | (c, xs) :: rest, x => if xs.contains x then c else costOf rest x

/-- `instruction_base_cycles(kind) + addressing_base_cycles(mode)` (R95). -/
def baseCost (t : CycleTable) (k : Kind) (m : Mode) : Nat := costOf t.kindRows k + costOf t.modeRows m

/-- The extra cycle of a read-class instruction on a crossed page (R150). -/
def readExtra (m : MemOperand) (s : State) : Nat := if crossed m s then 1 else 0

/-- The extra cycles of ASL, LSR, ROL and ROR (R175). -/
def shiftExtra (m : Mode) : Nat := if m = .acc then 0 else if m = .abx then 3 else 2

/-- The extra cycle of INC and DEC (R178). -/
def countExtra (m : Mode) : Nat := if m = .abx then 1 else 0

/-- The extra cycle of a store (R230). -/
def storeExtra (m : Mode) : Nat := if m = .abx ∨ m = .aby ∨ m = .izy then 1 else 0

/-- The extra cycles that depend on the kind and mode alone (R175, R178, R230). -/
def fixedExtra (k : Kind) (m : Mode) : Nat :=
  if k = .asl ∨ k = .lsr ∨ k = .rol ∨ k = .ror then shiftExtra m
  else if k = .inc ∨ k = .dec then countExtra m
  else if k = .sta then storeExtra m
  else 0

/-- The extra cycles of a taken branch: 1, and 1 more when the target's page is not the reference page, which for BEQ
counts only under `BEQ_PAGE_PENALTY` (R190). -/
def branchExtra (k : Kind) (target : Word) (s : State) : Nat :=
  let ref := match s.cfg.branchPageBase with
    | .opcode => s.pc
    | .next => s.pc + 2
  if page target != page ref && (k != .beq || s.cfg.beqPagePenalty) then 2 else 1

/-- Hand the instruction's total cost, base plus extra, to the scheduler: `owed <- cost` (R100, R105, R306).
DESIGN CHOICE (log 7, safe). -/
def charge (k : Kind) (o : Operand) (extra : Nat) (s : State) : State :=
  { s with owed := baseCost s.cfg.cycleTable k o.mode + extra }

/-- `PC <- PC +16 len` (R104). -/
def advance (o : Operand) (s : State) : State :=
  { s with pc := s.pc + BitVec.ofNat 16 o.mode.length }

/-- The end of an instruction that does not write PC: the advance and the cost (R100, R104). -/
def retire (k : Kind) (o : Operand) (extra : Nat) (s : State) : State := charge k o extra (advance o s)

/-- The least cost an opcode's instruction can have under a cost table. -/
def leastCost (t : CycleTable) (i : Instr) : Nat := baseCost t i.kind i.mode + fixedExtra i.kind i.mode

/-- Whether no cost is 0, the settings R306 admits: over every opcode of the ROM and the interrupt entry. -/
def costsAdmitted (c : Config) : Bool :=
  decide (0 < c.intEntryCycles) &&
    (List.range 256).all (fun op =>
      let i := romLookup (BitVec.ofNat 8 op) 0 0
      decide (i.kind = .noInstruction) || decide (0 < leastCost c.cycleTable i))

end Sys2Proof.Machine
end

