-- ==== Sys2Proof/Machine/Alu.lean ====
section
/-! DEFINITION. The meanings of the ALU instructions ADC SBC AND ORA EOR BIT CMP CPX CPY (42_alu.md R150 to R160): the shared
operation of each kind first, then one definition per instruction. -/

namespace Sys2Proof.Machine

/-- A read-class instruction: Operand(), its effect, the PC advance, the cost with R150's extra (R100, R103, R150). -/
def readInstr (k : Kind) (effect : Byte → State → State) (m : MemOperand) (s : State) : State :=
  retire k (.mem m) (readExtra m s) (effect (operandByte m s) s)

/-- ADC (R151). -/
def adc (m : MemOperand) (s : State) : State := readInstr .adc addWithCarry m s

/-- SBC: ADC with the operand complemented (R152). -/
def sbc (m : MemOperand) (s : State) : State := readInstr .sbc (fun v => addWithCarry (v ^^^ 0xFF#8)) m s

/-- `A <- r; SetZN(A)`. -/
def setA (r : Byte) (s : State) : State := setZN r { s with a := r }

/-- AND (R153). -/
def andWithA (m : MemOperand) (s : State) : State := readInstr .and (fun v s => setA (s.a &&& v) s) m s

/-- ORA (R154). -/
def oraWithA (m : MemOperand) (s : State) : State := readInstr .ora (fun v s => setA (s.a ||| v) s) m s

/-- EOR (R155). -/
def eorWithA (m : MemOperand) (s : State) : State := readInstr .eor (fun v s => setA (s.a ^^^ v) s) m s

/-- BIT (R156). -/
def bitTest (m : MemOperand) (s : State) : State := readInstr .bit bitFlags m s

/-- CMP (R157). -/
def cmp (m : MemOperand) (s : State) : State := readInstr .cmp (fun v s => compareFlags s.a v s) m s

/-- CPX (R158). -/
def cpx (m : MemOperand) (s : State) : State := readInstr .cpx (fun v s => compareFlags s.x v s) m s

/-- CPY (R159). -/
def cpy (m : MemOperand) (s : State) : State := readInstr .cpy (fun v s => compareFlags s.y v s) m s

/-- ADC, Immediate (R151). -/
def execAdcImm (imm : Byte) (s : State) : Host.Outcome State Fault Refusal :=
  .next (adc (.imm imm) s)

/-- ADC, Zero Page (R151). -/
def execAdcZp (zp : Byte) (s : State) : Host.Outcome State Fault Refusal :=
  .next (adc (.zp zp) s)

/-- ADC, Zero Page,X (R151). -/
def execAdcZpx (zp : Byte) (s : State) : Host.Outcome State Fault Refusal :=
  .next (adc (.zpx zp) s)

/-- ADC, Absolute (R151). -/
def execAdcAbs (addr : Word) (s : State) : Host.Outcome State Fault Refusal :=
  .next (adc (.abs addr) s)

/-- ADC, Absolute,X (R151). -/
def execAdcAbx (addr : Word) (s : State) : Host.Outcome State Fault Refusal :=
  .next (adc (.abx addr) s)

/-- ADC, Absolute,Y (R151). -/
def execAdcAby (addr : Word) (s : State) : Host.Outcome State Fault Refusal :=
  .next (adc (.aby addr) s)

/-- ADC, Indexed Indirect (R151). -/
def execAdcIzx (zp : Byte) (s : State) : Host.Outcome State Fault Refusal :=
  .next (adc (.izx zp) s)

/-- ADC, Indirect Indexed (R151). -/
def execAdcIzy (zp : Byte) (s : State) : Host.Outcome State Fault Refusal :=
  .next (adc (.izy zp) s)

/-- SBC, Immediate (R152). -/
def execSbcImm (imm : Byte) (s : State) : Host.Outcome State Fault Refusal :=
  .next (sbc (.imm imm) s)

/-- SBC, Zero Page (R152). -/
def execSbcZp (zp : Byte) (s : State) : Host.Outcome State Fault Refusal :=
  .next (sbc (.zp zp) s)

/-- SBC, Zero Page,X (R152). -/
def execSbcZpx (zp : Byte) (s : State) : Host.Outcome State Fault Refusal :=
  .next (sbc (.zpx zp) s)

/-- SBC, Absolute (R152). -/
def execSbcAbs (addr : Word) (s : State) : Host.Outcome State Fault Refusal :=
  .next (sbc (.abs addr) s)

/-- SBC, Absolute,X (R152). -/
def execSbcAbx (addr : Word) (s : State) : Host.Outcome State Fault Refusal :=
  .next (sbc (.abx addr) s)

/-- SBC, Absolute,Y (R152). -/
def execSbcAby (addr : Word) (s : State) : Host.Outcome State Fault Refusal :=
  .next (sbc (.aby addr) s)

/-- SBC, Indexed Indirect (R152). -/
def execSbcIzx (zp : Byte) (s : State) : Host.Outcome State Fault Refusal :=
  .next (sbc (.izx zp) s)

/-- SBC, Indirect Indexed (R152). -/
def execSbcIzy (zp : Byte) (s : State) : Host.Outcome State Fault Refusal :=
  .next (sbc (.izy zp) s)

/-- AND, Immediate (R153). -/
def execAndImm (imm : Byte) (s : State) : Host.Outcome State Fault Refusal :=
  .next (andWithA (.imm imm) s)

/-- AND, Zero Page (R153). -/
def execAndZp (zp : Byte) (s : State) : Host.Outcome State Fault Refusal :=
  .next (andWithA (.zp zp) s)

/-- AND, Zero Page,X (R153). -/
def execAndZpx (zp : Byte) (s : State) : Host.Outcome State Fault Refusal :=
  .next (andWithA (.zpx zp) s)

/-- AND, Absolute (R153). -/
def execAndAbs (addr : Word) (s : State) : Host.Outcome State Fault Refusal :=
  .next (andWithA (.abs addr) s)

/-- AND, Absolute,X (R153). -/
def execAndAbx (addr : Word) (s : State) : Host.Outcome State Fault Refusal :=
  .next (andWithA (.abx addr) s)

/-- AND, Absolute,Y (R153). -/
def execAndAby (addr : Word) (s : State) : Host.Outcome State Fault Refusal :=
  .next (andWithA (.aby addr) s)

/-- AND, Indexed Indirect (R153). -/
def execAndIzx (zp : Byte) (s : State) : Host.Outcome State Fault Refusal :=
  .next (andWithA (.izx zp) s)

/-- AND, Indirect Indexed (R153). -/
def execAndIzy (zp : Byte) (s : State) : Host.Outcome State Fault Refusal :=
  .next (andWithA (.izy zp) s)

/-- ORA, Immediate (R154). -/
def execOraImm (imm : Byte) (s : State) : Host.Outcome State Fault Refusal :=
  .next (oraWithA (.imm imm) s)

/-- ORA, Zero Page (R154). -/
def execOraZp (zp : Byte) (s : State) : Host.Outcome State Fault Refusal :=
  .next (oraWithA (.zp zp) s)

/-- ORA, Zero Page,X (R154). -/
def execOraZpx (zp : Byte) (s : State) : Host.Outcome State Fault Refusal :=
  .next (oraWithA (.zpx zp) s)

/-- ORA, Absolute (R154). -/
def execOraAbs (addr : Word) (s : State) : Host.Outcome State Fault Refusal :=
  .next (oraWithA (.abs addr) s)

/-- ORA, Absolute,X (R154). -/
def execOraAbx (addr : Word) (s : State) : Host.Outcome State Fault Refusal :=
  .next (oraWithA (.abx addr) s)

/-- ORA, Absolute,Y (R154). -/
def execOraAby (addr : Word) (s : State) : Host.Outcome State Fault Refusal :=
  .next (oraWithA (.aby addr) s)

/-- ORA, Indexed Indirect (R154). -/
def execOraIzx (zp : Byte) (s : State) : Host.Outcome State Fault Refusal :=
  .next (oraWithA (.izx zp) s)

/-- ORA, Indirect Indexed (R154). -/
def execOraIzy (zp : Byte) (s : State) : Host.Outcome State Fault Refusal :=
  .next (oraWithA (.izy zp) s)

/-- EOR, Immediate (R155). -/
def execEorImm (imm : Byte) (s : State) : Host.Outcome State Fault Refusal :=
  .next (eorWithA (.imm imm) s)

/-- EOR, Zero Page (R155). -/
def execEorZp (zp : Byte) (s : State) : Host.Outcome State Fault Refusal :=
  .next (eorWithA (.zp zp) s)

/-- EOR, Zero Page,X (R155). -/
def execEorZpx (zp : Byte) (s : State) : Host.Outcome State Fault Refusal :=
  .next (eorWithA (.zpx zp) s)

/-- EOR, Absolute (R155). -/
def execEorAbs (addr : Word) (s : State) : Host.Outcome State Fault Refusal :=
  .next (eorWithA (.abs addr) s)

/-- EOR, Absolute,X (R155). -/
def execEorAbx (addr : Word) (s : State) : Host.Outcome State Fault Refusal :=
  .next (eorWithA (.abx addr) s)

/-- EOR, Absolute,Y (R155). -/
def execEorAby (addr : Word) (s : State) : Host.Outcome State Fault Refusal :=
  .next (eorWithA (.aby addr) s)

/-- EOR, Indexed Indirect (R155). -/
def execEorIzx (zp : Byte) (s : State) : Host.Outcome State Fault Refusal :=
  .next (eorWithA (.izx zp) s)

/-- EOR, Indirect Indexed (R155). -/
def execEorIzy (zp : Byte) (s : State) : Host.Outcome State Fault Refusal :=
  .next (eorWithA (.izy zp) s)

/-- BIT, Zero Page (R156). -/
def execBitZp (zp : Byte) (s : State) : Host.Outcome State Fault Refusal :=
  .next (bitTest (.zp zp) s)

/-- BIT, Absolute (R156). -/
def execBitAbs (addr : Word) (s : State) : Host.Outcome State Fault Refusal :=
  .next (bitTest (.abs addr) s)

/-- CMP, Immediate (R157). -/
def execCmpImm (imm : Byte) (s : State) : Host.Outcome State Fault Refusal :=
  .next (cmp (.imm imm) s)

/-- CMP, Zero Page (R157). -/
def execCmpZp (zp : Byte) (s : State) : Host.Outcome State Fault Refusal :=
  .next (cmp (.zp zp) s)

/-- CMP, Zero Page,X (R157). -/
def execCmpZpx (zp : Byte) (s : State) : Host.Outcome State Fault Refusal :=
  .next (cmp (.zpx zp) s)

/-- CMP, Absolute (R157). -/
def execCmpAbs (addr : Word) (s : State) : Host.Outcome State Fault Refusal :=
  .next (cmp (.abs addr) s)

/-- CMP, Absolute,X (R157). -/
def execCmpAbx (addr : Word) (s : State) : Host.Outcome State Fault Refusal :=
  .next (cmp (.abx addr) s)

/-- CMP, Absolute,Y (R157). -/
def execCmpAby (addr : Word) (s : State) : Host.Outcome State Fault Refusal :=
  .next (cmp (.aby addr) s)

/-- CMP, Indexed Indirect (R157). -/
def execCmpIzx (zp : Byte) (s : State) : Host.Outcome State Fault Refusal :=
  .next (cmp (.izx zp) s)

/-- CMP, Indirect Indexed (R157). -/
def execCmpIzy (zp : Byte) (s : State) : Host.Outcome State Fault Refusal :=
  .next (cmp (.izy zp) s)

/-- CPX, Immediate (R158). -/
def execCpxImm (imm : Byte) (s : State) : Host.Outcome State Fault Refusal :=
  .next (cpx (.imm imm) s)

/-- CPX, Zero Page (R158). -/
def execCpxZp (zp : Byte) (s : State) : Host.Outcome State Fault Refusal :=
  .next (cpx (.zp zp) s)

/-- CPX, Absolute (R158). -/
def execCpxAbs (addr : Word) (s : State) : Host.Outcome State Fault Refusal :=
  .next (cpx (.abs addr) s)

/-- CPY, Immediate (R159). -/
def execCpyImm (imm : Byte) (s : State) : Host.Outcome State Fault Refusal :=
  .next (cpy (.imm imm) s)

/-- CPY, Zero Page (R159). -/
def execCpyZp (zp : Byte) (s : State) : Host.Outcome State Fault Refusal :=
  .next (cpy (.zp zp) s)

/-- CPY, Absolute (R159). -/
def execCpyAbs (addr : Word) (s : State) : Host.Outcome State Fault Refusal :=
  .next (cpy (.abs addr) s)

end Sys2Proof.Machine
end

