-- ==== Sys2Proof/Machine/Control.lean ====
section
/-! DEFINITION. The meanings of the branches, JMP, JSR, RTS, RTI and BRK, and the sentinel (44_control.md R190 to R204): the shared
operation of each kind first, then one definition per instruction. -/

namespace Sys2Proof.Machine

/-- The common branch rule (R190). -/
def branch (k : Kind) (taken : Bool) (off : Byte) (s : State) : State :=
  if taken then
    let target := s.pc + 2 + sext16 off
    charge k (.mem (.rel off)) (branchExtra k target s) { s with pc := target }
  else retire k (.mem (.rel off)) 0 s

/-- JMP (R199). -/
def jmp (m : MemOperand) (s : State) : State := charge .jmp (.mem m) 0 { s with pc := ea m s }

/-- JSR: push the address of its own last byte, then jump (R201). -/
def jumpSubroutine (addr : Word) (s : State) : State :=
  charge .jsr (.mem (.abs addr)) 0 { push16 (s.pc + 2) s with pc := addr }

/-- RTS: pull the return address and add 1 (R202). -/
def returnSubroutine (s : State) : State :=
  charge .rts .implied 0 { afterPull16 s with pc := pullWord s + 1 }

/-- BRK: enter through the IRQ/BRK vector with B set, I set only under `BRK_SETS_I` (R204). -/
def softwareBreak (s : State) : State :=
  let p := setBit 4 true s.p
  charge .brk .implied 0
    (enterException (s.pc + BitVec.ofNat 16 s.cfg.brkPushOffset.val) (s.p ||| 0x30#8)
      (if s.cfg.brkSetsI then setBit 2 true p else p) irqVector s)

/-- BPL, Relative (R191). -/
def execBpl (off : Byte) (s : State) : Host.Outcome State Fault Refusal :=
  .next (branch .bpl (!s.negative) off s)

/-- BMI, Relative (R192). -/
def execBmi (off : Byte) (s : State) : Host.Outcome State Fault Refusal :=
  .next (branch .bmi s.negative off s)

/-- BVC, Relative (R193). -/
def execBvc (off : Byte) (s : State) : Host.Outcome State Fault Refusal :=
  .next (branch .bvc (!s.overflow) off s)

/-- BVS, Relative (R194). -/
def execBvs (off : Byte) (s : State) : Host.Outcome State Fault Refusal :=
  .next (branch .bvs s.overflow off s)

/-- BCC, Relative (R195). -/
def execBcc (off : Byte) (s : State) : Host.Outcome State Fault Refusal :=
  .next (branch .bcc (!s.carry) off s)

/-- BCS, Relative (R196). -/
def execBcs (off : Byte) (s : State) : Host.Outcome State Fault Refusal :=
  .next (branch .bcs s.carry off s)

/-- BNE, Relative (R197). -/
def execBne (off : Byte) (s : State) : Host.Outcome State Fault Refusal :=
  .next (branch .bne (!s.zero) off s)

/-- BEQ, Relative (R198). -/
def execBeq (off : Byte) (s : State) : Host.Outcome State Fault Refusal :=
  .next (branch .beq s.zero off s)

/-- JMP, Absolute (R199). -/
def execJmpAbs (addr : Word) (s : State) : Host.Outcome State Fault Refusal :=
  .next (jmp (.abs addr) s)

/-- JMP, Indirect (R199). -/
def execJmpInd (addr : Word) (s : State) : Host.Outcome State Fault Refusal :=
  .next (jmp (.ind addr) s)

/-- JSR, Absolute (R201). -/
def execJsr (addr : Word) (s : State) : Host.Outcome State Fault Refusal :=
  .next (jumpSubroutine addr s)

/-- RTS, Implicit (R202). -/
def execRts (s : State) : Host.Outcome State Fault Refusal :=
  .next (returnSubroutine s)

/-- RTI, Implicit (R203). -/
def execRti (s : State) : Host.Outcome State Fault Refusal :=
  .next (charge .rti .implied 0 (leaveException s))

/-- BRK, Implicit (R204). -/
def execBrk (s : State) : Host.Outcome State Fault Refusal :=
  .next (softwareBreak s)

/-- The sentinel "no instruction" (30_encoding.md R85): FatalDecode, which halts the core (60_exceptions.md R261). -/
def execSentinel (opcode : Byte) (s : State) : Host.Outcome State Fault Refusal :=
  .next (haltFatal opcode s)

end Sys2Proof.Machine
end

