-- ==== Sys2Proof/Machine/Shift.lean ====
section
/-! DEFINITION. The meanings of the shifts, rotates, increments and decrements (43_shift_incdec.md R170 to R182): the shared
operation of each kind first, then one definition per instruction. -/

namespace Sys2Proof.Machine

/-- A shift or rotate: what the result byte and the carry out are, from the byte and the carry in. -/
structure ShiftOp where
  result : Byte → Bool → Byte
  carryOut : Byte → Bool

/-- ASL: `P.C <- v[7]; r <- (v << 1) & 0xFF` (R171). -/
def aslOp : ShiftOp := { result := fun v _ => v <<< 1, carryOut := fun v => v.getLsbD 7 }

/-- LSR: `P.C <- v[0]; r <- v >> 1` (R172). -/
def lsrOp : ShiftOp := { result := fun v _ => v >>> 1, carryOut := fun v => v.getLsbD 0 }

/-- ROL: `P.C <- v[7]; r <- ((v << 1) | c_in) & 0xFF` (R173). -/
def rolOp : ShiftOp := { result := fun v c => (v <<< 1) ||| BitVec.ofNat 8 c.toNat, carryOut := fun v => v.getLsbD 7 }

/-- ROR: `P.C <- v[0]; r <- (v >> 1) | (c_in << 7)` (R174). -/
def rorOp : ShiftOp :=
  { result := fun v c => (v >>> 1) ||| (BitVec.ofNat 8 c.toNat <<< 7), carryOut := fun v => v.getLsbD 0 }

/-- A shift or rotate of A (R170, Accumulator mode). -/
def shiftAcc (k : Kind) (op : ShiftOp) (s : State) : State :=
  let r := op.result s.a s.carry
  retire k .accumulator (fixedExtra k .acc) (setZN r (setC (op.carryOut s.a) { s with a := r }))

/-- A shift or rotate of the byte at ea: one read, one write (R170). -/
def shiftMem (k : Kind) (op : ShiftOp) (m : MemOperand) (s : State) : State :=
  let v := memRead s (ea m s)
  let r := op.result v s.carry
  retire k (.mem m) (fixedExtra k m.mode) (memWrite (ea m s) r (setZN r (setC (op.carryOut v) s)))

/-- INC or DEC of the byte at ea: one read, one write (R170, R176, R177). -/
def countMem (k : Kind) (result : Byte → Byte) (m : MemOperand) (s : State) : State :=
  let r := result (memRead s (ea m s))
  retire k (.mem m) (fixedExtra k m.mode) (memWrite (ea m s) r (setZN r s))

/-- INC (R176). -/
def inc (m : MemOperand) (s : State) : State := countMem .inc (fun v => v + 1) m s

/-- DEC (R177). -/
def dec (m : MemOperand) (s : State) : State := countMem .dec (fun v => v - 1) m s

/-- `X <- r; SetZN(X)`. -/
def setX (r : Byte) (s : State) : State := setZN r { s with x := r }

/-- `Y <- r; SetZN(Y)`. -/
def setY (r : Byte) (s : State) : State := setZN r { s with y := r }

/-- An instruction of mode Implicit that does not write PC: its effect, the PC advance, the cost (R100, R104). -/
def impliedInstr (k : Kind) (effect : State → State) (s : State) : State := retire k .implied 0 (effect s)

/-- ASL, Accumulator (R171). -/
def execAslAcc (s : State) : Host.Outcome State Fault Refusal :=
  .next (shiftAcc .asl aslOp s)

/-- ASL, Zero Page (R171). -/
def execAslZp (zp : Byte) (s : State) : Host.Outcome State Fault Refusal :=
  .next (shiftMem .asl aslOp (.zp zp) s)

/-- ASL, Zero Page,X (R171). -/
def execAslZpx (zp : Byte) (s : State) : Host.Outcome State Fault Refusal :=
  .next (shiftMem .asl aslOp (.zpx zp) s)

/-- ASL, Absolute (R171). -/
def execAslAbs (addr : Word) (s : State) : Host.Outcome State Fault Refusal :=
  .next (shiftMem .asl aslOp (.abs addr) s)

/-- ASL, Absolute,X (R171). -/
def execAslAbx (addr : Word) (s : State) : Host.Outcome State Fault Refusal :=
  .next (shiftMem .asl aslOp (.abx addr) s)

/-- LSR, Accumulator (R172). -/
def execLsrAcc (s : State) : Host.Outcome State Fault Refusal :=
  .next (shiftAcc .lsr lsrOp s)

/-- LSR, Zero Page (R172). -/
def execLsrZp (zp : Byte) (s : State) : Host.Outcome State Fault Refusal :=
  .next (shiftMem .lsr lsrOp (.zp zp) s)

/-- LSR, Zero Page,X (R172). -/
def execLsrZpx (zp : Byte) (s : State) : Host.Outcome State Fault Refusal :=
  .next (shiftMem .lsr lsrOp (.zpx zp) s)

/-- LSR, Absolute (R172). -/
def execLsrAbs (addr : Word) (s : State) : Host.Outcome State Fault Refusal :=
  .next (shiftMem .lsr lsrOp (.abs addr) s)

/-- LSR, Absolute,X (R172). -/
def execLsrAbx (addr : Word) (s : State) : Host.Outcome State Fault Refusal :=
  .next (shiftMem .lsr lsrOp (.abx addr) s)

/-- ROL, Accumulator (R173). -/
def execRolAcc (s : State) : Host.Outcome State Fault Refusal :=
  .next (shiftAcc .rol rolOp s)

/-- ROL, Zero Page (R173). -/
def execRolZp (zp : Byte) (s : State) : Host.Outcome State Fault Refusal :=
  .next (shiftMem .rol rolOp (.zp zp) s)

/-- ROL, Zero Page,X (R173). -/
def execRolZpx (zp : Byte) (s : State) : Host.Outcome State Fault Refusal :=
  .next (shiftMem .rol rolOp (.zpx zp) s)

/-- ROL, Absolute (R173). -/
def execRolAbs (addr : Word) (s : State) : Host.Outcome State Fault Refusal :=
  .next (shiftMem .rol rolOp (.abs addr) s)

/-- ROL, Absolute,X (R173). -/
def execRolAbx (addr : Word) (s : State) : Host.Outcome State Fault Refusal :=
  .next (shiftMem .rol rolOp (.abx addr) s)

/-- ROR, Accumulator (R174). -/
def execRorAcc (s : State) : Host.Outcome State Fault Refusal :=
  .next (shiftAcc .ror rorOp s)

/-- ROR, Zero Page (R174). -/
def execRorZp (zp : Byte) (s : State) : Host.Outcome State Fault Refusal :=
  .next (shiftMem .ror rorOp (.zp zp) s)

/-- ROR, Zero Page,X (R174). -/
def execRorZpx (zp : Byte) (s : State) : Host.Outcome State Fault Refusal :=
  .next (shiftMem .ror rorOp (.zpx zp) s)

/-- ROR, Absolute (R174). -/
def execRorAbs (addr : Word) (s : State) : Host.Outcome State Fault Refusal :=
  .next (shiftMem .ror rorOp (.abs addr) s)

/-- ROR, Absolute,X (R174). -/
def execRorAbx (addr : Word) (s : State) : Host.Outcome State Fault Refusal :=
  .next (shiftMem .ror rorOp (.abx addr) s)

/-- INC, Zero Page (R176). -/
def execIncZp (zp : Byte) (s : State) : Host.Outcome State Fault Refusal :=
  .next (inc (.zp zp) s)

/-- INC, Zero Page,X (R176). -/
def execIncZpx (zp : Byte) (s : State) : Host.Outcome State Fault Refusal :=
  .next (inc (.zpx zp) s)

/-- INC, Absolute (R176). -/
def execIncAbs (addr : Word) (s : State) : Host.Outcome State Fault Refusal :=
  .next (inc (.abs addr) s)

/-- INC, Absolute,X (R176). -/
def execIncAbx (addr : Word) (s : State) : Host.Outcome State Fault Refusal :=
  .next (inc (.abx addr) s)

/-- DEC, Zero Page (R177). -/
def execDecZp (zp : Byte) (s : State) : Host.Outcome State Fault Refusal :=
  .next (dec (.zp zp) s)

/-- DEC, Zero Page,X (R177). -/
def execDecZpx (zp : Byte) (s : State) : Host.Outcome State Fault Refusal :=
  .next (dec (.zpx zp) s)

/-- DEC, Absolute (R177). -/
def execDecAbs (addr : Word) (s : State) : Host.Outcome State Fault Refusal :=
  .next (dec (.abs addr) s)

/-- DEC, Absolute,X (R177). -/
def execDecAbx (addr : Word) (s : State) : Host.Outcome State Fault Refusal :=
  .next (dec (.abx addr) s)

/-- INX, Implicit (R179). -/
def execInx (s : State) : Host.Outcome State Fault Refusal :=
  .next (impliedInstr .inx (fun s => setX (s.x + 1) s) s)

/-- INY, Implicit (R180). -/
def execIny (s : State) : Host.Outcome State Fault Refusal :=
  .next (impliedInstr .iny (fun s => setY (s.y + 1) s) s)

/-- DEX, Implicit (R181). -/
def execDex (s : State) : Host.Outcome State Fault Refusal :=
  .next (impliedInstr .dex (fun s => setX (s.x - 1) s) s)

/-- DEY, Implicit (R182). -/
def execDey (s : State) : Host.Outcome State Fault Refusal :=
  .next (impliedInstr .dey (fun s => setY (s.y - 1) s) s)

end Sys2Proof.Machine
end

