-- ==== Sys2Proof/Machine/FlagOps.lean ====
section
/-! DEFINITION. The meanings of the flag instructions and NOP (46_flags_nop.md R250 to R257): the shared
operation of each kind first, then one definition per instruction. -/

namespace Sys2Proof.Machine


/-- CLC, Implicit (R250). -/
def execClc (s : State) : Host.Outcome State Fault Refusal :=
  .next (impliedInstr .clc (setC false) s)

/-- CLD, Implicit (R251). -/
def execCld (s : State) : Host.Outcome State Fault Refusal :=
  .next (impliedInstr .cld (setD false) s)

/-- CLI, Implicit (R252). -/
def execCli (s : State) : Host.Outcome State Fault Refusal :=
  .next (impliedInstr .cli (setI false) s)

/-- CLV, Implicit (R253). -/
def execClv (s : State) : Host.Outcome State Fault Refusal :=
  .next (impliedInstr .clv (setV false) s)

/-- SEC, Implicit (R254). -/
def execSec (s : State) : Host.Outcome State Fault Refusal :=
  .next (impliedInstr .sec (setC true) s)

/-- SED, Implicit (R255). -/
def execSed (s : State) : Host.Outcome State Fault Refusal :=
  .next (impliedInstr .sed (setD true) s)

/-- SEI, Implicit (R256). -/
def execSei (s : State) : Host.Outcome State Fault Refusal :=
  .next (impliedInstr .sei (setI true) s)

/-- NOP, Implicit (R257). -/
def execNop (s : State) : Host.Outcome State Fault Refusal :=
  .next (impliedInstr .nop id s)

end Sys2Proof.Machine
end

