-- ==== Sys2Proof/Machine/StackTransfer.lean ====
section
/-! DEFINITION. The meanings of the stack, load, store and transfer instructions (45_stack_transfer.md R220 to R236): the shared
operation of each kind first, then one definition per instruction. -/

namespace Sys2Proof.Machine

/-- A store: the write, then SetZN only under `STORE_SETS_NZ`, the PC advance, the cost (R227 to R230). -/
def storeInstr (k : Kind) (reg : Byte) (m : MemOperand) (s : State) : State :=
  let t := memWrite (ea m s) reg s
  retire k (.mem m) (fixedExtra k m.mode) (if s.cfg.storeSetsNZ then setZN reg t else t)

/-- LDA (R224). -/
def lda (m : MemOperand) (s : State) : State := readInstr .lda setA m s

/-- LDX (R225). -/
def ldx (m : MemOperand) (s : State) : State := readInstr .ldx setX m s

/-- LDY (R226). -/
def ldy (m : MemOperand) (s : State) : State := readInstr .ldy setY m s

/-- STA (R227). -/
def sta (m : MemOperand) (s : State) : State := storeInstr .sta s.a m s

/-- STX (R228). -/
def stx (m : MemOperand) (s : State) : State := storeInstr .stx s.x m s

/-- STY (R229). -/
def sty (m : MemOperand) (s : State) : State := storeInstr .sty s.y m s

/-- `A <- Pull8(); SetZN(A)` (R222). -/
def pullA (s : State) : State := setA (pullByte s) (afterPull s)

/-- `P <- (v & 0xCF) | 0x20 | (P & 0x10)` with v pulled (R223). -/
def pullP (s : State) : State :=
  { afterPull s with p := (pullByte s &&& 0xCF#8) ||| 0x20#8 ||| (s.p &&& 0x10#8) }

/-- PHA, Implicit (R220). -/
def execPha (s : State) : Host.Outcome State Fault Refusal :=
  .next (impliedInstr .pha (fun s => push8 s.a s) s)

/-- PHP, Implicit (R221). -/
def execPhp (s : State) : Host.Outcome State Fault Refusal :=
  .next (impliedInstr .php (fun s => push8 (s.p ||| 0x30#8) s) s)

/-- PLA, Implicit (R222). -/
def execPla (s : State) : Host.Outcome State Fault Refusal :=
  .next (impliedInstr .pla pullA s)

/-- PLP, Implicit (R223). -/
def execPlp (s : State) : Host.Outcome State Fault Refusal :=
  .next (impliedInstr .plp pullP s)

/-- LDA, Immediate (R224). -/
def execLdaImm (imm : Byte) (s : State) : Host.Outcome State Fault Refusal :=
  .next (lda (.imm imm) s)

/-- LDA, Zero Page (R224). -/
def execLdaZp (zp : Byte) (s : State) : Host.Outcome State Fault Refusal :=
  .next (lda (.zp zp) s)

/-- LDA, Zero Page,X (R224). -/
def execLdaZpx (zp : Byte) (s : State) : Host.Outcome State Fault Refusal :=
  .next (lda (.zpx zp) s)

/-- LDA, Absolute (R224). -/
def execLdaAbs (addr : Word) (s : State) : Host.Outcome State Fault Refusal :=
  .next (lda (.abs addr) s)

/-- LDA, Absolute,X (R224). -/
def execLdaAbx (addr : Word) (s : State) : Host.Outcome State Fault Refusal :=
  .next (lda (.abx addr) s)

/-- LDA, Absolute,Y (R224). -/
def execLdaAby (addr : Word) (s : State) : Host.Outcome State Fault Refusal :=
  .next (lda (.aby addr) s)

/-- LDA, Indexed Indirect (R224). -/
def execLdaIzx (zp : Byte) (s : State) : Host.Outcome State Fault Refusal :=
  .next (lda (.izx zp) s)

/-- LDA, Indirect Indexed (R224). -/
def execLdaIzy (zp : Byte) (s : State) : Host.Outcome State Fault Refusal :=
  .next (lda (.izy zp) s)

/-- LDX, Immediate (R225). -/
def execLdxImm (imm : Byte) (s : State) : Host.Outcome State Fault Refusal :=
  .next (ldx (.imm imm) s)

/-- LDX, Zero Page (R225). -/
def execLdxZp (zp : Byte) (s : State) : Host.Outcome State Fault Refusal :=
  .next (ldx (.zp zp) s)

/-- LDX, Zero Page,Y (R225). -/
def execLdxZpy (zp : Byte) (s : State) : Host.Outcome State Fault Refusal :=
  .next (ldx (.zpy zp) s)

/-- LDX, Absolute (R225). -/
def execLdxAbs (addr : Word) (s : State) : Host.Outcome State Fault Refusal :=
  .next (ldx (.abs addr) s)

/-- LDX, Absolute,Y (R225). -/
def execLdxAby (addr : Word) (s : State) : Host.Outcome State Fault Refusal :=
  .next (ldx (.aby addr) s)

/-- LDY, Immediate (R226). -/
def execLdyImm (imm : Byte) (s : State) : Host.Outcome State Fault Refusal :=
  .next (ldy (.imm imm) s)

/-- LDY, Zero Page (R226). -/
def execLdyZp (zp : Byte) (s : State) : Host.Outcome State Fault Refusal :=
  .next (ldy (.zp zp) s)

/-- LDY, Zero Page,X (R226). -/
def execLdyZpx (zp : Byte) (s : State) : Host.Outcome State Fault Refusal :=
  .next (ldy (.zpx zp) s)

/-- LDY, Absolute (R226). -/
def execLdyAbs (addr : Word) (s : State) : Host.Outcome State Fault Refusal :=
  .next (ldy (.abs addr) s)

/-- LDY, Absolute,X (R226). -/
def execLdyAbx (addr : Word) (s : State) : Host.Outcome State Fault Refusal :=
  .next (ldy (.abx addr) s)

/-- STA, Zero Page (R227). -/
def execStaZp (zp : Byte) (s : State) : Host.Outcome State Fault Refusal :=
  .next (sta (.zp zp) s)

/-- STA, Zero Page,X (R227). -/
def execStaZpx (zp : Byte) (s : State) : Host.Outcome State Fault Refusal :=
  .next (sta (.zpx zp) s)

/-- STA, Absolute (R227). -/
def execStaAbs (addr : Word) (s : State) : Host.Outcome State Fault Refusal :=
  .next (sta (.abs addr) s)

/-- STA, Absolute,X (R227). -/
def execStaAbx (addr : Word) (s : State) : Host.Outcome State Fault Refusal :=
  .next (sta (.abx addr) s)

/-- STA, Absolute,Y (R227). -/
def execStaAby (addr : Word) (s : State) : Host.Outcome State Fault Refusal :=
  .next (sta (.aby addr) s)

/-- STA, Indexed Indirect (R227). -/
def execStaIzx (zp : Byte) (s : State) : Host.Outcome State Fault Refusal :=
  .next (sta (.izx zp) s)

/-- STA, Indirect Indexed (R227). -/
def execStaIzy (zp : Byte) (s : State) : Host.Outcome State Fault Refusal :=
  .next (sta (.izy zp) s)

/-- STX, Zero Page (R228). -/
def execStxZp (zp : Byte) (s : State) : Host.Outcome State Fault Refusal :=
  .next (stx (.zp zp) s)

/-- STX, Zero Page,Y (R228). -/
def execStxZpy (zp : Byte) (s : State) : Host.Outcome State Fault Refusal :=
  .next (stx (.zpy zp) s)

/-- STX, Absolute (R228). -/
def execStxAbs (addr : Word) (s : State) : Host.Outcome State Fault Refusal :=
  .next (stx (.abs addr) s)

/-- STY, Zero Page (R229). -/
def execStyZp (zp : Byte) (s : State) : Host.Outcome State Fault Refusal :=
  .next (sty (.zp zp) s)

/-- STY, Zero Page,X (R229). -/
def execStyZpx (zp : Byte) (s : State) : Host.Outcome State Fault Refusal :=
  .next (sty (.zpx zp) s)

/-- STY, Absolute (R229). -/
def execStyAbs (addr : Word) (s : State) : Host.Outcome State Fault Refusal :=
  .next (sty (.abs addr) s)

/-- TAX, Implicit (R231). -/
def execTax (s : State) : Host.Outcome State Fault Refusal :=
  .next (impliedInstr .tax (fun s => setX s.a s) s)

/-- TAY, Implicit (R232). -/
def execTay (s : State) : Host.Outcome State Fault Refusal :=
  .next (impliedInstr .tay (fun s => setY s.a s) s)

/-- TSX, Implicit (R233). -/
def execTsx (s : State) : Host.Outcome State Fault Refusal :=
  .next (impliedInstr .tsx (fun s => setX s.sp s) s)

/-- TXA, Implicit (R234). -/
def execTxa (s : State) : Host.Outcome State Fault Refusal :=
  .next (impliedInstr .txa (fun s => setA s.x s) s)

/-- TXS, Implicit (R235). -/
def execTxs (s : State) : Host.Outcome State Fault Refusal :=
  .next (impliedInstr .txs (fun s => { s with sp := s.x }) s)

/-- TYA, Implicit (R236). -/
def execTya (s : State) : Host.Outcome State Fault Refusal :=
  .next (impliedInstr .tya (fun s => setA s.y s) s)

end Sys2Proof.Machine
end

