-- ==== Sys2Proof/Machine/Fetch.lean ====
section
/-! DEFINITION. Fetching an instruction's bytes and decoding them (40_fetch_execute.md R100 to R102). -/

namespace Sys2Proof.Machine

/-- The instruction at PC: the opcode byte and the bytes at PC + 1 and PC + 2 modulo 65536, decoded (R100 to R102).
The bytes an instruction does not have are not looked at; reading them changes nothing (R62): DEDUCED (log 11, safe). -/
def fetch (s : State) : Instr :=
  decodeOp s.cfg.admitUnlistedKinds (memRead s s.pc) (memRead s (s.pc + 1)) (memRead s (s.pc + 2))

/-- Store an instruction's three bytes at PC. -/
def placeAtPc (b0 b1 b2 : Byte) (s : State) : State :=
  memWrite (s.pc + 2) b2 (memWrite (s.pc + 1) b1 (memWrite s.pc b0 s))

end Sys2Proof.Machine
end

