-- ==== Sys2Proof/Machine/Scheduler.lean ====
section
/-! DEFINITION. The boundary dispatch (60_exceptions.md R268), the tick (70_reset_and_hazards.md R306) and the reset
sequence (R301). -/

namespace Sys2Proof.Machine

/-- Whether an IRQ is honoured at a boundary: the line is asserted and `P.I = 0` (R266, R268). -/
def irqDue (s : State) : Bool := s.irqLine && !s.interruptDisable

/-- Whether a boundary takes an interrupt instead of an instruction (R268). -/
def interruptDue (s : State) : Bool := s.nmiPending || irqDue s

/-- `Boundary()`: NMI before IRQ before the next instruction (R268). The cost stands in `owed` (log 7). -/
def boundary (s : State) : Host.Outcome State Fault Refusal :=
  if s.nmiPending then .next (interruptEntry nmiVector { s with nmiPending := false })
  else if irqDue s then .next (interruptEntry irqVector s)
  else exec (fetch s) s

/-- The count at the end of a tick: `owed <- owed - 1; cycles <- cycles + 1` (R306). -/
def countTick (s : State) : State := { s with owed := s.owed - 1, cycles := s.cycles + 1 }

/-- After a boundary: no cycle is counted if FatalDecode halted the core (R306). -/
def afterBoundary (s : State) : State := if s.run = .running then countTick s else s

/-- `Tick()` (R306). In Reset and Stopped a tick does nothing: DEDUCED (log 9, safe). Halted is final and a fault, no
step is enabled (R262): DEDUCED (log 8, safe). -/
def tick (s : State) : Host.Outcome State Fault Refusal :=
  match s.run with
  | .halted f => .fault f
  | .reset => .next s
  | .stopped => .next s
  | .running =>
    if s.owed = 0 then
      match boundary s with
      | .next t => .next (afterBoundary t)
      | .fault f => .fault f
      | .refused r => .refused r
    else .next (countTick s)

/-- `RESET_REGS` as P: its six bits, I = 1 and U = 1 (R301). -/
def resetP (r : ResetRegs) : Byte :=
  setBit 0 r.carry <| setBit 1 r.zero <| setBit 3 r.decimal <| setBit 4 r.brk <| setBit 6 r.overflow <|
    setBit 7 r.negative 0x24#8

/-- `Reset()`, the power-on reset sequence (R301, R302). Memory already holds RAM_INIT and the image (R303). -/
def resetSequence (s : State) : State :=
  { s with
    a := s.cfg.resetRegs.a, x := s.cfg.resetRegs.x, y := s.cfg.resetRegs.y,
    p := resetP s.cfg.resetRegs, sp := 0xFD#8, pc := memRead16 s resetVector,
    cycles := 7, owed := 0, nmiPending := false, run := .running }

end Sys2Proof.Machine
end

