-- ==== Sys2Proof/Machine/Step.lean ====
section
/-! DEFINITION. One step of the machine: one tick (70_reset_and_hazards.md R306). DESIGN CHOICE (log 7, safe). -/

namespace Sys2Proof.Machine

/-- One tick. -/
def step (s : State) : Host.Outcome State Fault Refusal := tick s

/-- The state with an instruction of the opcode table stored at PC, at an instruction boundary of the running core at
which no interrupt is due, so that the next step fetches and runs it (logs 4 and 19). -/
def State.withFetchWord (s : State) (nbits w : Nat) : State :=
  let v := w % 2 ^ nbits
  placeAtPc (tableByte v 0) (tableByte v 1) (tableByte v 2)
    { s with owed := 0, run := .running, nmiPending := false, irqLine := false }

end Sys2Proof.Machine
end

