-- ==== Sys2Proof/Machine/HostPort.lean ====
section
/-! DEFINITION. The host's side of the ports of 00_scope.md R5: what each interaction of 70_reset_and_hazards.md R316
does, and runs in which they come in any order (R308). -/

namespace Sys2Proof.Machine

/-- What the host can do (R5, R316). DESIGN CHOICE (log 13, safe): an input is a move of its own between two ticks. -/
inductive Move where
  /-- the cartridge's PRG ROM, handed over before reset -/
  | load (prg : List Byte)
  /-- power-on -/
  | reset
  /-- one clock step -/
  | tick
  /-- an NMI request -/
  | nmiRaise
  /-- the level of the IRQ line -/
  | irqLine (level : Bool)
  /-- the stop signal -/
  | stop
  deriving DecidableEq, Repr

/-- The number of banks of a PRG image, if it is one or two banks (R54, R303, D26). -/
def banksOf (size : Nat) : Option Banks :=
  if size = prgSize .one then some .one else if size = prgSize .two then some .two else none

/-- The image's bytes written at the PRG locations from k up (R54, R70). -/
def storeImage : List Byte → Nat → Memory → Memory
  | [], _, m => m
  | v :: rest, k, m => storeImage rest (k + 1) (m.set k v)

/-- The memory without its PRG bytes, which an image replaces. -/
def ramOnly : Memory → Memory
  | [] => []
  | (k, v) :: rest => if k < 0x0800 then (k, v) :: ramOnly rest else ramOnly rest

/-- The host's load (R70, R303, R316): before reset only, one or two banks only (logs 13 and 14). -/
def load (prg : List Byte) (s : State) : Host.Outcome State Fault Refusal :=
  if s.run = .reset then
    match banksOf prg.length with
    | some b => .next { s with mem := storeImage prg 0x8000 (ramOnly s.mem), cfg := { s.cfg with prgBanks := b } }
    | none => .refused (.badImage prg.length)
  else .refused .loadDuringRun

/-- The host's power-on (R301, R304): the reset sequence from `run = Reset`; there is no second reset in a run, so it
changes nothing later. A setting that gives a cost of 0 is refused (R306, U11; logs 14 and 15). -/
def powerOn (s : State) : Host.Outcome State Fault Refusal :=
  if s.run = .reset then
    if costsAdmitted s.cfg then .next (resetSequence s) else .refused .costOfZero
  else .next s

/-- `nmi_raise` (R265): sets the latch, before reset too (log 20); no effect while Halted or Stopped. -/
def raiseNmi (s : State) : State :=
  match s.run with
  | .running | .reset => { s with nmiPending := true }
  | .halted _ | .stopped => s

/-- `stop` (R307): `run <- Stopped`; Halted and Stopped are final, and Reset is not running yet (R300, log 20). The
remaining countdown is dropped in that no tick burns it; what `owed` holds then the rule leaves open, and here it keeps its
value: DESIGN CHOICE (log 22, unsafe). -/
def stopRun (s : State) : State :=
  match s.run with
  | .running => { s with run := .stopped }
  | .reset | .halted _ | .stopped => s

/-- The effect of a move. -/
def move (m : Move) (s : State) : Host.Outcome State Fault Refusal :=
  match m with
  | .load prg => load prg s
  | .reset => powerOn s
  | .tick => step s
  | .nmiRaise => .next (raiseNmi s)
  | .irqLine level => .next { s with irqLine := level }
  | .stop => .next (stopRun s)

/-- A run: moves in order, ending at the first fault or refusal (R308: every order of inputs and ticks is admitted). -/
def runMoves : List Move → State → Host.Outcome State Fault Refusal
  | [], s => .next s
  | m :: ms, s =>
    match move m s with
    | .next t => runMoves ms t
    | .fault f => .fault f
    | .refused r => .refused r

/-- The state before power-on, with nothing loaded and the default parameters: every field not yet set is 0. -/
def State.beforeReset : State :=
  { a := 0x00#8, x := 0x00#8, y := 0x00#8, sp := 0x00#8, p := 0x00#8, pc := 0x0000#16,
    cycles := 0, owed := 0, nmiPending := false, irqLine := false, run := .reset,
    mem := [], cfg := defaultConfig }

end Sys2Proof.Machine
end

