-- ==== Sys2Proof/Machine/RunEnd.lean ====
section
/-! DEFINITION. The end of a run (70_reset_and_hazards.md R315): the end address a program claim names, and runs that
stop at their first end. -/

namespace Sys2Proof.Machine

/-- The byte a PRG image of one or two banks shows at an address, if the address is in the PRG region (R54, R70). -/
def imageByte (prg : List Byte) (a : Word) : Option Byte :=
  if 0x8000 ≤ a.toNat then prg[(a.toNat - 0x8000) % prg.length]? else none

/-- The image holds `JMP a` at a: the bytes `4C lo(a) hi(a)` (R315). -/
def imageHoldsSelfJump (prg : List Byte) (a : Word) : Bool :=
  imageByte prg a == some 0x4C#8 && imageByte prg (a + 1) == some (lo a) && imageByte prg (a + 2) == some (hi a)

/-- Whether a tick that starts in this state is the boundary `EndAt(a)` names: `run = Running`, nothing owed, no interrupt
taken, and `PC = a` (R315). A claim may name no address. DEDUCED (log 23, unsafe): the state before the tick decides. -/
def isEndBoundary (a : Option Word) (s : State) : Bool :=
  s.run == .running && s.owed == 0 && !interruptDue s && a == some s.pc

/-- How a run goes (R315). -/
inductive RunEnd where
  /-- `Stopped` by the external stop, a normal end, with the state at the stop -/
  | stopped (s : State)
  /-- `Halted` by FatalDecode, a fault and never a normal end, with the state it leaves -/
  | halted (f : Fault) (s : State)
  /-- `EndAt(a)`, with the state at that boundary, before the JMP executes -/
  | endAt (s : State)
  /-- no end within these moves: a run that never comes to one hangs (U12) -/
  | unended (s : State)
  /-- the host made a move that no run has (logs 14 and 15) -/
  | refused (r : Refusal)
  deriving DecidableEq, Repr

/-- The end a state is in for good: `Stopped` or `Halted` (R315). -/
def finalEnd (s : State) : Option RunEnd :=
  match s.run with
  | .stopped => some (.stopped s)
  | .halted f => some (.halted f s)
  | .reset | .running => none

/-- A run under a list of moves, ending at the first of its ends (R315): in `Stopped` or `Halted`, or before the first tick
that would be the boundary `EndAt(a)` names. -/
def runToEnd (a : Option Word) : List Move → State → RunEnd
  | [], s => (finalEnd s).getD (.unended s)
  | m :: ms, s =>
    match finalEnd s with
    | some e => e
    | none =>
      if m = .tick ∧ isEndBoundary a s = true then .endAt s
      else match move m s with
        | .next t => runToEnd a ms t
        | .fault f => .halted f s
        | .refused r => .refused r

/-- The run of a program claim (R315, R316): the image is loaded, power-on is given, and the moves follow. The claim's
address counts only if the image holds the self-jump there. -/
def runProgram (prg : List Byte) (a : Option Word) (moves : List Move) (s : State) : RunEnd :=
  runToEnd (a.filter (imageHoldsSelfJump prg)) (.load prg :: .reset :: moves) s

end Sys2Proof.Machine
end

