-- ==== Sys2Proof/Machine/Trace.lean ====
section
/-! DEFINITION. The core's outputs: the trace record (40_fetch_execute.md R107) and the warnings of the memory bus
(20_memory.md R56, R57), as functions of the state that emits them. DESIGN CHOICE (log 16, safe). -/

namespace Sys2Proof.Machine

/-- The trace record (R107). -/
structure TraceRecord where
  programCounter : Word
  opcodeByte : Byte
  rawOperandBytes : List Byte
  instructionKind : Kind
  addressingMode : Mode
  resolvedAddress : Option Word
  accumulator : Byte
  indexX : Byte
  indexY : Byte
  statusFlags : Byte
  stackPointer : Byte
  elapsedCycleCount : Nat
  deriving DecidableEq, Repr

/-- The record of an instruction, after resolution and before execution (R107, D31). -/
def recordOf (i : Instr) (s : State) : TraceRecord :=
  { programCounter := s.pc, opcodeByte := i.opcode, rawOperandBytes := i.operand.bytes,
    instructionKind := i.kind, addressingMode := i.mode, resolvedAddress := (resolve i.operand s).1,
    accumulator := s.a, indexX := s.x, indexY := s.y, statusFlags := s.p, stackPointer := s.sp,
    elapsedCycleCount := s.cycles }

/-- The record the tick at this state emits: one per executed instruction, none for an idle tick, an interrupt entry or
the fatal decode error (R107, R261, R269). -/
def traceRecord (s : State) : Option TraceRecord :=
  if s.run = .running ∧ s.owed = 0 ∧ interruptDue s = false ∧ (fetch s).kind ≠ .noInstruction then
    some (recordOf (fetch s) s)
  else none

/-- A warning of the memory bus (R56). -/
inductive Warning where
  | unmappedRead (addr : Word)
  | unmappedWrite (addr : Word) (v : Byte)
  deriving DecidableEq, Repr

/-- What a read of an address warns of (R56); how often an instruction repeats it is open (R57). -/
def readWarning (b : Banks) (a : Word) : Option Warning :=
  match locate b a with
  | none => some (.unmappedRead a)
  | some _ => none

/-- What a write of an address warns of (R56); a write to PRG warns of nothing (R55, D28). -/
def writeWarning (b : Banks) (a : Word) (v : Byte) : Option Warning :=
  match locate b a with
  | none => some (.unmappedWrite a v)
  | some _ => none

end Sys2Proof.Machine
end

