-- ==== Sys2Proof/Safety.lean ====
section
/-! DEFINITION. The terms claims are stated in: what an instruction completes with and what it keeps, the machine's
invariant, an instruction boundary, the end of a run, and a run that has failed. -/

namespace Sys2Proof.Safety

open Sys2Proof.Machine

/-- A, X, Y and S hold these values. -/
def RegsAre (t : State) (a x y sp : Byte) : Prop := t.a = a ∧ t.x = x ∧ t.y = y ∧ t.sp = sp

/-- Z and N as `SetZN(r)` leaves them (10_state.md R37). -/
def FlagsZN (t : State) (r : Byte) : Prop := t.zero = decide (r.toNat = 0) ∧ t.negative = decide (128 ≤ r.toNat)

/-- Every bit of P outside `written` is unchanged. -/
def KeepsFlags (written : Byte) (s t : State) : Prop := t.p &&& ~~~written = s.p &&& ~~~written

/-- The scheduler's, the host's and the controller's state and the parameters are unchanged; `owed`, which carries an
instruction's cost, is not among them (log 7). -/
def KeepsControl (s t : State) : Prop :=
  t.cycles = s.cycles ∧ t.nmiPending = s.nmiPending ∧ t.irqLine = s.irqLine ∧ t.run = s.run ∧ t.cfg = s.cfg

/-- Every byte of memory reads as before. -/
def KeepsMemory (s t : State) : Prop := ∀ b : Word, memRead t b = memRead s b

/-- Two addresses that reach the same byte of RAM or PRG (20_memory.md R52 to R56). -/
def sameByte (banks : Banks) (a b : Word) : Bool :=
  locate banks a == locate banks b && (locate banks a).isSome

/-- Memory after the byte v is stored at a: the byte a reaches, with its mirrors, reads v, and every other address reads
as before; where a is unmapped nothing changes. -/
def StoresByte (a : Word) (v : Byte) (s t : State) : Prop :=
  ∀ b : Word, memRead t b = if sameByte s.cfg.prgBanks a b then v else memRead s b

/-- Memory after a list of (address, byte) stores, the first first; every address none of them reaches reads as before. -/
def StoresBytes (stores : List (Word × Byte)) (s t : State) : Prop :=
  ∀ b : Word, memRead t b =
    stores.foldl (fun v st => if sameByte s.cfg.prgBanks st.1 b then st.2 else v) (memRead s b)

/-- The instruction runs: `exec` answers a next state, with PC at `pc`, the total cost base + extra in `owed`, the control
state kept, and `post`. -/
def CompletesAt (i : Instr) (s : State) (pc : Word) (extra : Nat) (post : State → Prop) : Prop :=
  ∃ t, exec i s = .next t ∧ t.pc = pc ∧ t.owed = baseCost s.cfg.cycleTable i.kind i.mode + extra ∧
    KeepsControl s t ∧ post t

/-- The instruction runs and PC advances by its length, modulo 65536 (40_fetch_execute.md R104). -/
def Completes (i : Instr) (s : State) (extra : Nat) (post : State → Prop) : Prop :=
  CompletesAt i s (s.pc + BitVec.ofNat 16 i.length) extra post

/-- The instruction has one of these modes and opcodes: the Encoding line of its rule (30_encoding.md R84). -/
def EncodedAs (i : Instr) (codes : List (Mode × Byte)) : Prop := (i.mode, i.opcode) ∈ codes

/-- The operand value a read-modify-write instruction reads: A, or the byte at ea (40_fetch_execute.md R103). -/
def operandValue (o : Operand) (s : State) : Byte :=
  match o with
  | .accumulator => s.a
  | .mem m => memRead s (ea m s)
  | .noOperand | .implied => 0x00#8

/-- The result of a read-modify-write instruction is written back to where its operand was read, and nothing else in the
registers and memory changes (43_shift_incdec.md R170). -/
def WritesBack (o : Operand) (r : Byte) (s t : State) : Prop :=
  match o with
  | .accumulator => RegsAre t r s.x s.y s.sp ∧ KeepsMemory s t
  | .mem m => RegsAre t s.a s.x s.y s.sp ∧ StoresByte (ea m s) r s t
  | .noOperand | .implied => False

/-- The instruction is one branch with this opcode, taken when `taken` holds (44_control.md R190): PC, the cost and the
frame. The page of an address is its upper byte. -/
def Branches (i : Instr) (op : Byte) (taken : Bool) (off : Byte) (s : State) : Prop :=
  let target := BitVec.ofInt 16 ((s.pc.toNat : Int) + 2 + off.toInt)
  let ref := if s.cfg.branchPageBase = .opcode then s.pc else s.pc + 2
  let penalty := target.toNat / 256 ≠ ref.toNat / 256 ∧ (i.kind ≠ .beq ∨ s.cfg.beqPagePenalty = true)
  EncodedAs i [(.rel, op)] ∧
  ((taken = true ∧ penalty → CompletesAt i s target 2 (fun t => RegsAre t s.a s.x s.y s.sp ∧ t.p = s.p ∧ KeepsMemory s t)) ∧
   (taken = true ∧ ¬ penalty → CompletesAt i s target 1 (fun t => RegsAre t s.a s.x s.y s.sp ∧ t.p = s.p ∧ KeepsMemory s t)) ∧
   (taken = false → CompletesAt i s (s.pc + 2) 0 (fun t => RegsAre t s.a s.x s.y s.sp ∧ t.p = s.p ∧ KeepsMemory s t)))
  ∧ i.operand = .mem (.rel off)

/-- The word at an address, low byte first (20_memory.md R58, R59). -/
def wordAt (s : State) (a : Word) : Word :=
  BitVec.ofNat 16 ((memRead s a).toNat + 256 * (memRead s (a + 1)).toNat)

/-- An instruction boundary at which no interrupt is taken (70_reset_and_hazards.md R306, 60_exceptions.md R268). -/
def AtBoundary (s : State) : Prop := s.run = .running ∧ s.owed = 0 ∧ interruptDue s = false

/-- A boundary that `EndAt(a)` names: no interrupt is taken at it and PC = a (70_reset_and_hazards.md R315). The first
one ends the run, `FirstEndAt`. -/
def EndsAt (a : Word) (s : State) : Prop := AtBoundary s ∧ s.pc = a

/-- Memory holds `JMP a` at a, as the image of R315 does until the program overwrites it. -/
def HoldsSelfJump (a : Word) (s : State) : Prop :=
  memRead s a = 0x4C#8 ∧ memRead s (a + 1) = lo a ∧ memRead s (a + 2) = hi a

/-- t is the state at the first boundary that `EndAt(a)` names, when the moves are made from s (R315): the moves before a
tick lead to t, and no earlier tick started at such a boundary. -/
def FirstEndAt (a : Word) (moves : List Move) (s t : State) : Prop :=
  ∃ before after, moves = before ++ .tick :: after ∧ runMoves before s = .next t ∧ EndsAt a t ∧
    ∀ earlier later u, before = earlier ++ .tick :: later → runMoves earlier s = .next u → ¬ EndsAt a u

/-- The moves, or some of the first of them, lead from s to t. -/
def LeadsTo (moves : List Move) (s t : State) : Prop :=
  ∃ before after, moves = before ++ after ∧ runMoves before s = .next t

/-- A run that has failed: its last step answers a fault, which is FatalDecode (60_exceptions.md R262). -/
def Failed (o : Host.Outcome State Fault Refusal) : Prop := ∃ f, o = .fault f

/-- The invariant of the machine: memory is in canonical form and lists only locations of the map, and from the reset
sequence on the unused bit of P is 1 (10_state.md R32, 20_memory.md R52). -/
def MachineInv (s : State) : Prop :=
  s.mem.wf = true ∧ s.mem.inMap s.cfg.prgBanks = true ∧ (s.run ≠ .reset → s.unused = true)

/-- Two states that agree in everything but the counters of the scheduler and the parameters that bear on cost alone. -/
def AgreesButTiming (s t : State) : Prop :=
  t = { s with
        cycles := t.cycles, owed := t.owed,
        cfg := { s.cfg with
          cycleTable := t.cfg.cycleTable, intEntryCycles := t.cfg.intEntryCycles,
          beqPagePenalty := t.cfg.beqPagePenalty, branchPageBase := t.cfg.branchPageBase } }

/-- The state with the control state no instruction can see replaced (10_state.md R38). -/
def withControl (cycles : Nat) (nmiPending irqLine : Bool) (s : State) : State :=
  { s with cycles := cycles, nmiPending := nmiPending, irqLine := irqLine }

end Sys2Proof.Safety
end

