-- ==== Sys2Proof/Certificates/Slice0/Obligations.lean ====
section
/-! DEFINITION. The statements for the provers, from the numbered rules of the spec. Each holds for every state and every
setting of the parameters of 00_scope.md R8 unless it names one. -/

open Sys2Proof Sys2Proof.Machine Sys2Proof.Safety

/-- Encoding then decoding gives the instruction back, with every operand at every value, whatever bytes follow. The
opcode values are R84's, general knowledge, and one sentinel constructor of length 1 is the model's choice (logs 17 and
18). -/
def Obligations.DecodeEncodeAgree : Prop :=
  ∀ (allow : Bool) (i : Instr) (rest : List Byte), i.wf allow = true →
    decode allow (encode i ++ rest) = .ok (i, rest)

/-- What decodes is well-formed and encodes to the bytes it was decoded from. The sentinel of length 1 is the model's
choice (log 17). -/
def Obligations.EncodeDecodeAgree : Prop :=
  ∀ (allow : Bool) (bytes rest : List Byte) (i : Instr), decode allow bytes = .ok (i, rest) →
    encode i ++ rest = bytes ∧ i.wf allow = true

/-- The three opcode values the source gives (R91), and one word of each family by hand from R84. The other five opcode
values are general knowledge (log 18). -/
def Obligations.SourceWordsDecode : Prop :=
  decodeTableWord 16 0x05A9 = some (.ldaImm 0x05#8) ∧
  decodeTableWord 16 0x1085 = some (.staZp 0x10#8) ∧
  decodeTableWord 24 0x80044C = some (.jmpAbs 0x8004#16) ∧
  decodeTableWord 16 0x1069 = some (.adcImm 0x10#8) ∧
  decodeTableWord 24 0x02007E = some (.rorAbx 0x0200#16) ∧
  decodeTableWord 16 0xFBD0 = some (.bne 0xFB#8) ∧
  decodeTableWord 8 0x48 = some .pha ∧
  decodeTableWord 8 0x78 = some .sei

/-- R85: the 105 sentinel opcodes are exactly the values that decode to the sentinel, whatever bytes follow, and
executing one raises FatalDecode and halts the core. The list is general knowledge (D4, log 18); that exec answers a
halted next state is deduced (log 8). -/
def Obligations.UndefinedOpcodesHalt : Prop :=
  sentinelOpcodes.length = 105 ∧
  (∀ op b1 b2 : Byte, op ∈ sentinelOpcodes ↔ decodeOp true op b1 b2 = .sentinel op) ∧
  (∀ (op : Byte) (s : State), exec (.sentinel op) s = .next { s with run := .halted (.fatalDecode s.pc op) })

/-- R86: with ADMIT_UNLISTED_KINDS false exactly the 30 opcodes of AND, ORA, EOR, BIT, INX, INY, DEX and DEY decode to
the sentinel as well; every other opcode decodes the same way under both settings. The parameter is decision D5 (log
18). -/
def Obligations.UnlistedKindsParameter : Prop :=
  unlistedOpcodes.length = 30 ∧
  (∀ op b1 b2 : Byte, op ∈ unlistedOpcodes →
    decodeOp false op b1 b2 = .sentinel op ∧
    (decodeOp true op b1 b2).kind ∈ ([.and, .ora, .eor, .bit, .inx, .iny, .dex, .dey] : List Kind)) ∧
  (∀ op b1 b2 : Byte, op ∉ unlistedOpcodes →
    decodeOp false op b1 b2 = decodeOp true op b1 b2 ∧
    (decodeOp true op b1 b2).kind ∉ ([.and, .ora, .eor, .bit, .inx, .iny, .dex, .dey] : List Kind))

/-- R81: an instruction's length is 1, 2 or 3 by its mode alone, its operand bytes are those after the opcode in the
order of the rule's table, and the opcode byte alone gives mode and length. For the sentinel, to which R81 gives no
length, the second part says the length 1 that is the model's choice (log 17). -/
def Obligations.InstructionLengths : Prop :=
  (∀ i : Instr, i.kind ≠ .noInstruction →
    i.mode ≠ .noMode ∧
    (i.mode ∈ ([.imp, .acc] : List Mode) → i.length = 1) ∧
    (i.mode ∈ ([.imm, .rel, .zp, .zpx, .zpy, .izx, .izy] : List Mode) → i.length = 2) ∧
    (i.mode ∈ ([.abs, .abx, .aby, .ind] : List Mode) → i.length = 3)) ∧
  (∀ (allow : Bool) (op b1 b2 c1 c2 : Byte),
    (decodeOp allow op b1 b2).operand.bytes = [b1, b2].take ((decodeOp allow op b1 b2).length - 1) ∧
    (decodeOp allow op b1 b2).mode = (decodeOp allow op c1 c2).mode ∧
    (decodeOp allow op b1 b2).length = (decodeOp allow op c1 c2).length)

/-- At an instruction boundary at which no interrupt is taken, a step is `exec` of the instruction whose bytes stand at
PC, PC + 1 and PC + 2 modulo 65536, which always answers a next state, and then the count of one tick unless the core
halted (R100, R306). The tick's order is decision D24, the address wrap D39 (log 18); the cost handed over in `owed` is
the model's choice (log 7). -/
def Obligations.StepRunsDecodedInstruction : Prop :=
  ∀ (s : State) (i : Instr) (rest : List Byte),
    s.run = .running → s.owed = 0 → s.nmiPending = false → (s.irqLine = false ∨ s.interruptDisable = true) →
    decode s.cfg.admitUnlistedKinds [memRead s s.pc, memRead s (s.pc + 1), memRead s (s.pc + 2)] = .ok (i, rest) →
    ∃ t, exec i s = .next t ∧
      (t.run = .running → step s = .next { t with owed := t.owed - 1, cycles := t.cycles + 1 }) ∧
      (t.run ≠ .running → step s = .next t)

/-- R53: below 0x2000 the low 11 bits of an address select the byte read; a write is read back at all four mirrors and
nowhere else, PRG included. -/
def Obligations.RamIsMirrored : Prop :=
  ∀ (s : State) (a b : Word) (v : Byte), a.toNat < 0x2000 →
    memRead s a = memRead s (a &&& 0x07FF#16) ∧
    (b.toNat < 0x2000 → memRead (memWrite a v s) b = if a &&& 0x07FF#16 = b &&& 0x07FF#16 then v else memRead s b) ∧
    (0x2000 ≤ b.toNat → memRead (memWrite a v s) b = memRead s b)

/-- R54 and R55: from 0x8000 on the address selects a PRG byte, modulo 16 KB with one bank, so that both halves read
the same, and directly with two; a write passes through, is read back at every address that maps to that byte and
nowhere else. The two-bank map is decision D26 (log 18). -/
def Obligations.PrgRomMapsAndWrites : Prop :=
  ∀ (s : State) (a b : Word) (v : Byte), 0x8000 ≤ a.toNat →
    (0x8000 ≤ b.toNat → s.cfg.prgBanks = .one →
      ((a.toNat - 0x8000) % 0x4000 = (b.toNat - 0x8000) % 0x4000 → memRead s a = memRead s b) ∧
      memRead (memWrite a v s) b = if (a.toNat - 0x8000) % 0x4000 = (b.toNat - 0x8000) % 0x4000 then v else memRead s b) ∧
    (0x8000 ≤ b.toNat → s.cfg.prgBanks = .two →
      memRead (memWrite a v s) b = if a = b then v else memRead s b) ∧
    (b.toNat < 0x8000 → memRead (memWrite a v s) b = memRead s b)

/-- R56: an unmapped address reads 0, a write to it changes no state, and each warns of the access. That a warning is a
function of the address, and what it carries, are the model's choice (log 16). -/
def Obligations.UnmappedReadsZeroDropsWrites : Prop :=
  ∀ (s : State) (a : Word) (v : Byte), 0x2000 ≤ a.toNat → a.toNat < 0x8000 →
    memRead s a = 0x00#8 ∧ memWrite a v s = s ∧
    readWarning s.cfg.prgBanks a = some (.unmappedRead a) ∧
    writeWarning s.cfg.prgBanks a v = some (.unmappedWrite a v)

/-- R59: a 16-bit read takes the low byte at the address and the high byte at the next, 0x0000 after 0xFFFF. The byte
order of pointers is decision D3, the wrap D12 (log 18). -/
def Obligations.WordReadsLittleEndian : Prop :=
  ∀ (s : State) (a : Word),
    (memRead16 s a).toNat = (memRead s a).toNat + 256 * (memRead s (a + 1)).toNat ∧
    (a = 0xFFFF#16 → (memRead16 s a).toNat = (memRead s 0xFFFF#16).toNat + 256 * (memRead s 0x0000#16).toNat)

/-- R24: a push writes 0x0100 + S and then decrements S, a pull increments S and then reads 0x0100 + S, both modulo 256
and with nothing else changed, and a pull gives back what was pushed. The page and the order are decision D2, general
knowledge (log 18). -/
def Obligations.PushAndPullByte : Prop :=
  ∀ (s : State) (v : Byte),
    (push8 v s = { memWrite (BitVec.ofNat 16 (0x0100 + s.sp.toNat)) v s with sp := BitVec.ofNat 8 (s.sp.toNat + 255) }) ∧
    StoresByte (BitVec.ofNat 16 (0x0100 + s.sp.toNat)) v s (push8 v s) ∧
    memRead (push8 v s) (BitVec.ofNat 16 (0x0100 + s.sp.toNat)) = v ∧
    pullByte s = memRead s (BitVec.ofNat 16 (0x0100 + (s.sp.toNat + 1) % 256)) ∧
    afterPull s = { s with sp := BitVec.ofNat 8 (s.sp.toNat + 1) } ∧
    pullByte (push8 v s) = v ∧ (afterPull (push8 v s)).sp = s.sp

/-- R25: a pushed word lies with its high byte at 0x0100 + S and its low byte one below in the stack page, and is
pulled back. The byte order is decision D3, general knowledge (log 18). -/
def Obligations.PushAndPullWord : Prop :=
  ∀ (s : State) (w : Word),
    memRead (push16 w s) (BitVec.ofNat 16 (0x0100 + s.sp.toNat)) = BitVec.ofNat 8 (w.toNat / 256) ∧
    memRead (push16 w s) (BitVec.ofNat 16 (0x0100 + (s.sp.toNat + 255) % 256)) = BitVec.ofNat 8 w.toNat ∧
    (push16 w s).sp = s.sp - 2 ∧
    pullWord (push16 w s) = w ∧ (afterPull16 (push16 w s)).sp = s.sp

/-- S7 and R24: after n pushes S is lower by n modulo 256, so that 256 of them return it to its value, and no address
outside the stack page's location in RAM is changed. The page is decision D2 (log 18). -/
def Obligations.PushesWrapAfter256 : Prop :=
  ∀ (vs : List Byte) (s : State),
    (vs.foldl (fun t v => push8 v t) s).sp = s.sp - BitVec.ofNat 8 vs.length ∧
    (vs.length = 256 → (vs.foldl (fun t v => push8 v t) s).sp = s.sp) ∧
    (∀ b : Word, (∀ sp : Byte, sameByte s.cfg.prgBanks (BitVec.ofNat 16 (0x0100 + sp.toNat)) b = false) →
      memRead (vs.foldl (fun t v => push8 v t) s) b = memRead s b)

/-- R151: ADC in every form, with C, V, Z and N by the formulas of the rule, and everything else unchanged. The opcodes
are R84's, general knowledge (log 18). The extra cycle of ADC is decision D13. -/
def Obligations.AdcResult : Prop :=
  ∀ (i : Instr) (s : State), i.kind = .adc → ∃ m, i.operand = .mem m ∧
    EncodedAs i [(.imm, 0x69#8), (.zp, 0x65#8), (.zpx, 0x75#8), (.abs, 0x6D#8), (.abx, 0x7D#8), (.aby, 0x79#8),
      (.izx, 0x61#8), (.izy, 0x71#8)] ∧
    Completes i s (if crossed m s then 1 else 0) (fun t =>
      let v := operandByte m s
      let sum := s.a.toNat + v.toNat + s.carry.toNat
      RegsAre t (BitVec.ofNat 8 (sum % 256)) s.x s.y s.sp ∧ t.carry = decide (sum > 0xFF) ∧
      t.overflow = (~~~(s.a ^^^ v) &&& (s.a ^^^ t.a) &&& 0x80#8 != 0#8) ∧
      FlagsZN t t.a ∧ KeepsFlags 0xC3#8 s t ∧ KeepsMemory s t)

/-- The V formula of ADC and SBC is signed overflow: the exact signed sum lies outside −128 to 127, whatever D holds.
Derived from the formulas of R151 and R152; binary arithmetic whatever D holds is decision D34 (log 18). -/
def Obligations.OverflowIsSignedOverflow : Prop :=
  (∀ (i : Instr) (s : State), i.kind = .adc → ∃ m t, i.operand = .mem m ∧ exec i s = .next t ∧
    t.overflow = decide (s.a.toInt + (operandByte m s).toInt + (s.carry.toNat : Int) < -128 ∨
      127 < s.a.toInt + (operandByte m s).toInt + (s.carry.toNat : Int)) ∧
    (t.overflow = false → t.a.toInt = s.a.toInt + (operandByte m s).toInt + (s.carry.toNat : Int))) ∧
  (∀ (i : Instr) (s : State), i.kind = .sbc → ∃ m t, i.operand = .mem m ∧ exec i s = .next t ∧
    t.overflow = decide (s.a.toInt - (operandByte m s).toInt - (1 - (s.carry.toNat : Int)) < -128 ∨
      127 < s.a.toInt - (operandByte m s).toInt - (1 - (s.carry.toNat : Int))) ∧
    (t.overflow = false → t.a.toInt = s.a.toInt - (operandByte m s).toInt - (1 - (s.carry.toNat : Int))))

/-- R152: SBC in every form: A − M − (1 − C) modulo 256, with C the inverted borrow, and everything else unchanged. The
opcodes are R84's, general knowledge (log 18). The subtraction and borrow form is the inference R152 marks [derived],
the extra cycle decision D13. -/
def Obligations.SbcResult : Prop :=
  ∀ (i : Instr) (s : State), i.kind = .sbc → ∃ m, i.operand = .mem m ∧
    EncodedAs i [(.imm, 0xE9#8), (.zp, 0xE5#8), (.zpx, 0xF5#8), (.abs, 0xED#8), (.abx, 0xFD#8), (.aby, 0xF9#8),
      (.izx, 0xE1#8), (.izy, 0xF1#8)] ∧
    Completes i s (if crossed m s then 1 else 0) (fun t =>
      let v := operandByte m s
      let notV := v ^^^ 0xFF#8
      let sum := s.a.toNat + notV.toNat + s.carry.toNat
      let borrow := 1 - s.carry.toNat
      RegsAre t (BitVec.ofNat 8 (sum % 256)) s.x s.y s.sp ∧ t.carry = decide (sum > 0xFF) ∧
      t.a = s.a - v - BitVec.ofNat 8 borrow ∧ t.carry = decide (s.a.toNat ≥ v.toNat + borrow) ∧
      t.overflow = (~~~(s.a ^^^ notV) &&& (s.a ^^^ t.a) &&& 0x80#8 != 0#8) ∧
      FlagsZN t t.a ∧ KeepsFlags 0xC3#8 s t ∧ KeepsMemory s t)

/-- R153 to R155: AND, ORA and EOR in every form. The three rules and the opcodes are general knowledge (D5, log 18),
the extra cycle is decision D13. -/
def Obligations.LogicResults : Prop :=
  (∀ (i : Instr) (s : State), i.kind = .and → ∃ m, i.operand = .mem m ∧
    EncodedAs i [(.imm, 0x29#8), (.zp, 0x25#8), (.zpx, 0x35#8), (.abs, 0x2D#8), (.abx, 0x3D#8), (.aby, 0x39#8),
      (.izx, 0x21#8), (.izy, 0x31#8)] ∧
    Completes i s (if crossed m s then 1 else 0) (fun t =>
      RegsAre t (s.a &&& operandByte m s) s.x s.y s.sp ∧ FlagsZN t t.a ∧ KeepsFlags 0x82#8 s t ∧ KeepsMemory s t)) ∧
  (∀ (i : Instr) (s : State), i.kind = .ora → ∃ m, i.operand = .mem m ∧
    EncodedAs i [(.imm, 0x09#8), (.zp, 0x05#8), (.zpx, 0x15#8), (.abs, 0x0D#8), (.abx, 0x1D#8), (.aby, 0x19#8),
      (.izx, 0x01#8), (.izy, 0x11#8)] ∧
    Completes i s (if crossed m s then 1 else 0) (fun t =>
      RegsAre t (s.a ||| operandByte m s) s.x s.y s.sp ∧ FlagsZN t t.a ∧ KeepsFlags 0x82#8 s t ∧ KeepsMemory s t)) ∧
  (∀ (i : Instr) (s : State), i.kind = .eor → ∃ m, i.operand = .mem m ∧
    EncodedAs i [(.imm, 0x49#8), (.zp, 0x45#8), (.zpx, 0x55#8), (.abs, 0x4D#8), (.abx, 0x5D#8), (.aby, 0x59#8),
      (.izx, 0x41#8), (.izy, 0x51#8)] ∧
    Completes i s (if crossed m s then 1 else 0) (fun t =>
      RegsAre t (s.a ^^^ operandByte m s) s.x s.y s.sp ∧ FlagsZN t t.a ∧ KeepsFlags 0x82#8 s t ∧ KeepsMemory s t))

/-- R156: BIT in both forms: Z from A & M, N and V from bits 7 and 6 of M, A kept. The rule and the opcodes are general
knowledge (D5, log 18). -/
def Obligations.BitResult : Prop :=
  ∀ (i : Instr) (s : State), i.kind = .bit → ∃ m, i.operand = .mem m ∧
    EncodedAs i [(.zp, 0x24#8), (.abs, 0x2C#8)] ∧
    Completes i s 0 (fun t =>
      RegsAre t s.a s.x s.y s.sp ∧ t.zero = decide (s.a &&& operandByte m s = 0#8) ∧
      t.negative = decide (128 ≤ (operandByte m s).toNat) ∧ t.overflow = decide (64 ≤ (operandByte m s).toNat % 128) ∧
      KeepsFlags 0xC2#8 s t ∧ KeepsMemory s t)

/-- R157 to R159: CMP, CPX and CPY in every form: C from the unsigned comparison, Z and N from the wrapped difference,
and no register changed. The opcodes are R84's, general knowledge (log 18). The extra cycle of CMP is decision D13. -/
def Obligations.CompareResults : Prop :=
  (∀ (i : Instr) (s : State), i.kind = .cmp → ∃ m, i.operand = .mem m ∧
    EncodedAs i [(.imm, 0xC9#8), (.zp, 0xC5#8), (.zpx, 0xD5#8), (.abs, 0xCD#8), (.abx, 0xDD#8), (.aby, 0xD9#8),
      (.izx, 0xC1#8), (.izy, 0xD1#8)] ∧
    Completes i s (if crossed m s then 1 else 0) (fun t =>
      RegsAre t s.a s.x s.y s.sp ∧ t.carry = decide (s.a.toNat ≥ (operandByte m s).toNat) ∧
      FlagsZN t (s.a - operandByte m s) ∧ KeepsFlags 0x83#8 s t ∧ KeepsMemory s t)) ∧
  (∀ (i : Instr) (s : State), i.kind = .cpx → ∃ m, i.operand = .mem m ∧
    EncodedAs i [(.imm, 0xE0#8), (.zp, 0xE4#8), (.abs, 0xEC#8)] ∧
    Completes i s 0 (fun t =>
      RegsAre t s.a s.x s.y s.sp ∧ t.carry = decide (s.x.toNat ≥ (operandByte m s).toNat) ∧
      FlagsZN t (s.x - operandByte m s) ∧ KeepsFlags 0x83#8 s t ∧ KeepsMemory s t)) ∧
  (∀ (i : Instr) (s : State), i.kind = .cpy → ∃ m, i.operand = .mem m ∧
    EncodedAs i [(.imm, 0xC0#8), (.zp, 0xC4#8), (.abs, 0xCC#8)] ∧
    Completes i s 0 (fun t =>
      RegsAre t s.a s.x s.y s.sp ∧ t.carry = decide (s.y.toNat ≥ (operandByte m s).toNat) ∧
      FlagsZN t (s.y - operandByte m s) ∧ KeepsFlags 0x83#8 s t ∧ KeepsMemory s t))

/-- R170, R171, R172 and R175: ASL and LSR of A and of memory: doubling and halving, C the bit shifted out, the result
written back, and the fixed extra cycles. The opcodes are R84's, general knowledge (log 18). Z and N are decision
D6. -/
def Obligations.ShiftResults : Prop :=
  (∀ (i : Instr) (s : State), i.kind = .asl →
    EncodedAs i [(.acc, 0x0A#8), (.zp, 0x06#8), (.zpx, 0x16#8), (.abs, 0x0E#8), (.abx, 0x1E#8)] ∧
    Completes i s (if i.mode = .acc then 0 else if i.mode = .abx then 3 else 2) (fun t =>
      let v := operandValue i.operand s
      let r := BitVec.ofNat 8 (2 * v.toNat)
      WritesBack i.operand r s t ∧ t.carry = decide (128 ≤ v.toNat) ∧ FlagsZN t r ∧ KeepsFlags 0x83#8 s t)) ∧
  (∀ (i : Instr) (s : State), i.kind = .lsr →
    EncodedAs i [(.acc, 0x4A#8), (.zp, 0x46#8), (.zpx, 0x56#8), (.abs, 0x4E#8), (.abx, 0x5E#8)] ∧
    Completes i s (if i.mode = .acc then 0 else if i.mode = .abx then 3 else 2) (fun t =>
      let v := operandValue i.operand s
      let r := BitVec.ofNat 8 (v.toNat / 2)
      WritesBack i.operand r s t ∧ t.carry = decide (v.toNat % 2 = 1) ∧ FlagsZN t r ∧ t.negative = false ∧
      KeepsFlags 0x83#8 s t))

/-- R170, R173, R174 and R175: ROL and ROR of A and of memory, the old carry shifted in. The opcodes are R84's, general
knowledge (log 18). Z and N are decision D6. -/
def Obligations.RotateResults : Prop :=
  (∀ (i : Instr) (s : State), i.kind = .rol →
    EncodedAs i [(.acc, 0x2A#8), (.zp, 0x26#8), (.zpx, 0x36#8), (.abs, 0x2E#8), (.abx, 0x3E#8)] ∧
    Completes i s (if i.mode = .acc then 0 else if i.mode = .abx then 3 else 2) (fun t =>
      let v := operandValue i.operand s
      let r := BitVec.ofNat 8 (2 * v.toNat + s.carry.toNat)
      WritesBack i.operand r s t ∧ t.carry = decide (128 ≤ v.toNat) ∧ FlagsZN t r ∧ KeepsFlags 0x83#8 s t)) ∧
  (∀ (i : Instr) (s : State), i.kind = .ror →
    EncodedAs i [(.acc, 0x6A#8), (.zp, 0x66#8), (.zpx, 0x76#8), (.abs, 0x6E#8), (.abx, 0x7E#8)] ∧
    Completes i s (if i.mode = .acc then 0 else if i.mode = .abx then 3 else 2) (fun t =>
      let v := operandValue i.operand s
      let r := BitVec.ofNat 8 (v.toNat / 2 + 128 * s.carry.toNat)
      WritesBack i.operand r s t ∧ t.carry = decide (v.toNat % 2 = 1) ∧ FlagsZN t r ∧ t.negative = s.carry ∧
      KeepsFlags 0x83#8 s t))

/-- Nine executions of ROL A restore A and C, and so do nine of ROR A; one of ROL A and one of ROR A cancel. R173 says
so of ROL; for ROR and for the pair it is derived from R173 and R174. -/
def Obligations.NineRotatesRestore : Prop :=
  ∀ s : State,
    let rol := fun t => shiftAcc .rol rolOp t
    let ror := fun t => shiftAcc .ror rorOp t
    (∀ t, exec .rolAcc t = .next (rol t) ∧ exec .rorAcc t = .next (ror t)) ∧
    (rol^[9] s).a = s.a ∧ (rol^[9] s).carry = s.carry ∧
    (ror^[9] s).a = s.a ∧ (ror^[9] s).carry = s.carry ∧
    (ror (rol s)).a = s.a ∧ (ror (rol s)).carry = s.carry

/-- R170, R176, R177 and R178: INC and DEC of memory, modulo 256, with C and V kept. The opcodes are R84's, general
knowledge (log 18). Z and N are decision D6. -/
def Obligations.IncDecResults : Prop :=
  (∀ (i : Instr) (s : State), i.kind = .inc → ∃ m, i.operand = .mem m ∧
    EncodedAs i [(.zp, 0xE6#8), (.zpx, 0xF6#8), (.abs, 0xEE#8), (.abx, 0xFE#8)] ∧
    Completes i s (if i.mode = .abx then 1 else 0) (fun t =>
      let r := BitVec.ofNat 8 ((memRead s (ea m s)).toNat + 1)
      RegsAre t s.a s.x s.y s.sp ∧ StoresByte (ea m s) r s t ∧ FlagsZN t r ∧ KeepsFlags 0x82#8 s t)) ∧
  (∀ (i : Instr) (s : State), i.kind = .dec → ∃ m, i.operand = .mem m ∧
    EncodedAs i [(.zp, 0xC6#8), (.zpx, 0xD6#8), (.abs, 0xCE#8), (.abx, 0xDE#8)] ∧
    Completes i s (if i.mode = .abx then 1 else 0) (fun t =>
      let r := BitVec.ofNat 8 ((memRead s (ea m s)).toNat + 255)
      RegsAre t s.a s.x s.y s.sp ∧ StoresByte (ea m s) r s t ∧ FlagsZN t r ∧ KeepsFlags 0x82#8 s t))

/-- R179 to R182: INX, INY, DEX and DEY, modulo 256. The four rules and the opcodes are general knowledge (D5, log
18). -/
def Obligations.IndexCountResults : Prop :=
  ∀ s : State,
    (EncodedAs .inx [(.imp, 0xE8#8)] ∧ Completes .inx s 0 (fun t =>
      RegsAre t s.a (BitVec.ofNat 8 (s.x.toNat + 1)) s.y s.sp ∧ FlagsZN t t.x ∧ KeepsFlags 0x82#8 s t ∧ KeepsMemory s t)) ∧
    (EncodedAs .iny [(.imp, 0xC8#8)] ∧ Completes .iny s 0 (fun t =>
      RegsAre t s.a s.x (BitVec.ofNat 8 (s.y.toNat + 1)) s.sp ∧ FlagsZN t t.y ∧ KeepsFlags 0x82#8 s t ∧ KeepsMemory s t)) ∧
    (EncodedAs .dex [(.imp, 0xCA#8)] ∧ Completes .dex s 0 (fun t =>
      RegsAre t s.a (BitVec.ofNat 8 (s.x.toNat + 255)) s.y s.sp ∧ FlagsZN t t.x ∧ KeepsFlags 0x82#8 s t ∧ KeepsMemory s t)) ∧
    (EncodedAs .dey [(.imp, 0x88#8)] ∧ Completes .dey s 0 (fun t =>
      RegsAre t s.a s.x (BitVec.ofNat 8 (s.y.toNat + 255)) s.sp ∧ FlagsZN t t.y ∧ KeepsFlags 0x82#8 s t ∧ KeepsMemory s t))

/-- R190 to R198: each branch, taken and not taken, with its cost under both page references and both settings of
BEQ_PAGE_PENALTY. The conditions but BEQ's and the opcodes are general knowledge (log 18); the page test is decisions
D9 and D10, the wrap D39. -/
def Obligations.BranchResults : Prop :=
  ∀ (off : Byte) (s : State),
    Branches (.bpl off) 0x10#8 (!s.negative) off s ∧ Branches (.bmi off) 0x30#8 s.negative off s ∧
    Branches (.bvc off) 0x50#8 (!s.overflow) off s ∧ Branches (.bvs off) 0x70#8 s.overflow off s ∧
    Branches (.bcc off) 0x90#8 (!s.carry) off s ∧ Branches (.bcs off) 0xB0#8 s.carry off s ∧
    Branches (.bne off) 0xD0#8 (!s.zero) off s ∧ Branches (.beq off) 0xF0#8 s.zero off s

/-- R199 and R131: JMP absolute, and JMP indirect with the pointer's high byte from the same page or, with
JMP_IND_PAGE_WRAP false, from the next address. The opcodes are R84's, general knowledge (log 18). The page wrap is
decision D8. -/
def Obligations.JumpResults : Prop :=
  ∀ (addr : Word) (s : State),
    (EncodedAs (.jmpAbs addr) [(.abs, 0x4C#8)] ∧ CompletesAt (.jmpAbs addr) s addr 0 (fun t =>
      RegsAre t s.a s.x s.y s.sp ∧ t.p = s.p ∧ KeepsMemory s t)) ∧
    (EncodedAs (.jmpInd addr) [(.ind, 0x6C#8)] ∧
      (let highAt := if s.cfg.jmpIndPageWrap then BitVec.ofNat 16 (addr.toNat / 256 * 256 + (addr.toNat + 1) % 256)
        else BitVec.ofNat 16 (addr.toNat + 1)
       CompletesAt (.jmpInd addr) s
        (BitVec.ofNat 16 ((memRead s addr).toNat + 256 * (memRead s highAt).toNat)) 0 (fun t =>
          RegsAre t s.a s.x s.y s.sp ∧ t.p = s.p ∧ KeepsMemory s t)))

/-- R201 and R202: JSR pushes the address of its last byte and jumps; RTS pulls an address and adds 1. The opcodes are
R84's, general knowledge (log 18). The stack page and the byte order are decisions D2 and D3. -/
def Obligations.SubroutineResults : Prop :=
  (∀ (addr : Word) (s : State), EncodedAs (.jsr addr) [(.abs, 0x20#8)] ∧
    CompletesAt (.jsr addr) s addr 0 (fun t =>
      RegsAre t s.a s.x s.y (BitVec.ofNat 8 (s.sp.toNat + 254)) ∧ t.p = s.p ∧
      StoresBytes [(stackAddr s.sp, BitVec.ofNat 8 ((s.pc + 2).toNat / 256)),
        (stackAddr (s.sp - 1), BitVec.ofNat 8 (s.pc + 2).toNat)] s t)) ∧
  (∀ s : State, EncodedAs .rts [(.imp, 0x60#8)] ∧
    CompletesAt .rts s
      (BitVec.ofNat 16 ((memRead s (stackAddr (s.sp + 1))).toNat + 256 * (memRead s (stackAddr (s.sp + 2))).toNat + 1)) 0
      (fun t => RegsAre t s.a s.x s.y (BitVec.ofNat 8 (s.sp.toNat + 2)) ∧ t.p = s.p ∧ KeepsMemory s t))

/-- R203: RTI pulls P with the unused bit forced, then PC with no + 1. The opcodes are R84's, general knowledge (log
18). B from the pulled byte is decision D33, the stack D2 and D3. -/
def Obligations.RtiResult : Prop :=
  ∀ s : State, EncodedAs .rti [(.imp, 0x40#8)] ∧
    CompletesAt .rti s
      (BitVec.ofNat 16 ((memRead s (stackAddr (s.sp + 2))).toNat + 256 * (memRead s (stackAddr (s.sp + 3))).toNat)) 0
      (fun t => RegsAre t s.a s.x s.y (BitVec.ofNat 8 (s.sp.toNat + 3)) ∧
        t.p = memRead s (stackAddr (s.sp + 1)) ||| 0x20#8 ∧ t.unused = true ∧ KeepsMemory s t)

/-- R204: BRK pushes PC + BRK_PUSH_OFFSET and P with B and U set, sets B, sets I only under BRK_SETS_I, and loads PC
from the IRQ/BRK vector. The opcodes are R84's, general knowledge (log 18). The offset is decision D15, I D16, the
stack D2 and D3. -/
def Obligations.BrkResult : Prop :=
  ∀ s : State, EncodedAs .brk [(.imp, 0x00#8)] ∧
    CompletesAt .brk s (wordAt s 0xFFFE#16) 0 (fun t =>
      let ret := s.pc + BitVec.ofNat 16 s.cfg.brkPushOffset.val
      RegsAre t s.a s.x s.y (BitVec.ofNat 8 (s.sp.toNat + 253)) ∧
      t.p = (if s.cfg.brkSetsI then s.p ||| 0x14#8 else s.p ||| 0x10#8) ∧
      StoresBytes [(stackAddr s.sp, BitVec.ofNat 8 (ret.toNat / 256)), (stackAddr (s.sp - 1), BitVec.ofNat 8 ret.toNat),
        (stackAddr (s.sp - 2), s.p ||| 0x30#8)] s t)

/-- RTS undoes JSR and RTI undoes BRK: PC is the address after the JSR, or PC + BRK_PUSH_OFFSET; S is back, A, X and Y
are kept, and P is kept by JSR and RTS and comes back with B and U set after BRK and RTI. Derived from R201 to R204,
and so from decisions D2, D3, D15 and D33 (log 18). -/
def Obligations.CallsAndBreaksReturn : Prop :=
  (∀ (addr : Word) (s : State), ∃ t u, exec (.jsr addr) s = .next t ∧ exec .rts t = .next u ∧
    u.pc = s.pc + 3 ∧ RegsAre u s.a s.x s.y s.sp ∧ u.p = s.p) ∧
  (∀ s : State, ∃ t u, exec .brk s = .next t ∧ exec .rti t = .next u ∧
    u.pc = s.pc + BitVec.ofNat 16 s.cfg.brkPushOffset.val ∧ RegsAre u s.a s.x s.y s.sp ∧ u.p = s.p ||| 0x30#8)

/-- R220 and R221: PHA and PHP. The opcodes are R84's, general knowledge (log 18). The stack page is decision D2. -/
def Obligations.PushInstructionResults : Prop :=
  ∀ s : State,
    (EncodedAs .pha [(.imp, 0x48#8)] ∧ Completes .pha s 0 (fun t =>
      RegsAre t s.a s.x s.y (BitVec.ofNat 8 (s.sp.toNat + 255)) ∧ t.p = s.p ∧ StoresByte (stackAddr s.sp) s.a s t)) ∧
    (EncodedAs .php [(.imp, 0x08#8)] ∧ Completes .php s 0 (fun t =>
      RegsAre t s.a s.x s.y (BitVec.ofNat 8 (s.sp.toNat + 255)) ∧ t.p = s.p ∧
      StoresByte (stackAddr s.sp) (s.p ||| 0x30#8) s t))

/-- R222 and R223: PLA sets Z and N from the pulled byte; PLP loads every flag but B, which it keeps, and U, which it
forces. The opcodes are R84's, general knowledge (log 18). The stack page is decision D2, the flag bits D1. -/
def Obligations.PullInstructionResults : Prop :=
  ∀ s : State,
    (EncodedAs .pla [(.imp, 0x68#8)] ∧ Completes .pla s 0 (fun t =>
      RegsAre t (memRead s (stackAddr (s.sp + 1))) s.x s.y (BitVec.ofNat 8 (s.sp.toNat + 1)) ∧
      FlagsZN t t.a ∧ KeepsFlags 0x82#8 s t ∧ KeepsMemory s t)) ∧
    (EncodedAs .plp [(.imp, 0x28#8)] ∧ Completes .plp s 0 (fun t =>
      RegsAre t s.a s.x s.y (BitVec.ofNat 8 (s.sp.toNat + 1)) ∧
      t.p &&& 0xCF#8 = memRead s (stackAddr (s.sp + 1)) &&& 0xCF#8 ∧ t.brk = s.brk ∧ t.unused = true ∧ KeepsMemory s t))

/-- S9: PHA then PLA gives A back with Z and N from it; PHP then PLP gives back every flag, B with its value before,
and U as 1. Derived from R220 to R223 in every state, U = 0 included. -/
def Obligations.PushPullRoundTrips : Prop :=
  ∀ s : State,
    (∃ t u, exec .pha s = .next t ∧ exec .pla t = .next u ∧
      RegsAre u s.a s.x s.y s.sp ∧ FlagsZN u s.a ∧ KeepsFlags 0x82#8 s u ∧ u.pc = s.pc + 2) ∧
    (∃ t u, exec .php s = .next t ∧ exec .plp t = .next u ∧
      RegsAre u s.a s.x s.y s.sp ∧ u.p = s.p ||| 0x20#8 ∧ u.pc = s.pc + 2)

/-- R224 to R226: LDA, LDX and LDY in every form, with the extra cycle of R150. The opcodes are R84's, general
knowledge (log 18). -/
def Obligations.LoadResults : Prop :=
  (∀ (i : Instr) (s : State), i.kind = .lda → ∃ m, i.operand = .mem m ∧
    EncodedAs i [(.imm, 0xA9#8), (.zp, 0xA5#8), (.zpx, 0xB5#8), (.abs, 0xAD#8), (.abx, 0xBD#8), (.aby, 0xB9#8),
      (.izx, 0xA1#8), (.izy, 0xB1#8)] ∧
    Completes i s (if crossed m s then 1 else 0) (fun t =>
      RegsAre t (operandByte m s) s.x s.y s.sp ∧ FlagsZN t t.a ∧ KeepsFlags 0x82#8 s t ∧ KeepsMemory s t)) ∧
  (∀ (i : Instr) (s : State), i.kind = .ldx → ∃ m, i.operand = .mem m ∧
    EncodedAs i [(.imm, 0xA2#8), (.zp, 0xA6#8), (.zpy, 0xB6#8), (.abs, 0xAE#8), (.aby, 0xBE#8)] ∧
    Completes i s (if crossed m s then 1 else 0) (fun t =>
      RegsAre t s.a (operandByte m s) s.y s.sp ∧ FlagsZN t t.x ∧ KeepsFlags 0x82#8 s t ∧ KeepsMemory s t)) ∧
  (∀ (i : Instr) (s : State), i.kind = .ldy → ∃ m, i.operand = .mem m ∧
    EncodedAs i [(.imm, 0xA0#8), (.zp, 0xA4#8), (.zpx, 0xB4#8), (.abs, 0xAC#8), (.abx, 0xBC#8)] ∧
    Completes i s (if crossed m s then 1 else 0) (fun t =>
      RegsAre t s.a s.x (operandByte m s) s.sp ∧ FlagsZN t t.y ∧ KeepsFlags 0x82#8 s t ∧ KeepsMemory s t))

/-- R227 to R230: STA, STX and STY in every form: the byte ea reaches, no flag unless STORE_SETS_NZ, and STA's extra
cycle for ABX, ABY and IZY whether or not a page is crossed. The opcodes are R84's, general knowledge (log 18). The
flags are decision D7, the parameter STORE_SETS_NZ. -/
def Obligations.StoreResults : Prop :=
  (∀ (i : Instr) (s : State), i.kind = .sta → ∃ m, i.operand = .mem m ∧
    EncodedAs i [(.zp, 0x85#8), (.zpx, 0x95#8), (.abs, 0x8D#8), (.abx, 0x9D#8), (.aby, 0x99#8), (.izx, 0x81#8),
      (.izy, 0x91#8)] ∧
    Completes i s (if i.mode ∈ ([.abx, .aby, .izy] : List Mode) then 1 else 0) (fun t =>
      RegsAre t s.a s.x s.y s.sp ∧ StoresByte (ea m s) s.a s t ∧ (s.cfg.storeSetsNZ = false → t.p = s.p) ∧
      (s.cfg.storeSetsNZ = true → FlagsZN t s.a ∧ KeepsFlags 0x82#8 s t))) ∧
  (∀ (i : Instr) (s : State), i.kind = .stx → ∃ m, i.operand = .mem m ∧
    EncodedAs i [(.zp, 0x86#8), (.zpy, 0x96#8), (.abs, 0x8E#8)] ∧
    Completes i s 0 (fun t =>
      RegsAre t s.a s.x s.y s.sp ∧ StoresByte (ea m s) s.x s t ∧ (s.cfg.storeSetsNZ = false → t.p = s.p) ∧
      (s.cfg.storeSetsNZ = true → FlagsZN t s.x ∧ KeepsFlags 0x82#8 s t))) ∧
  (∀ (i : Instr) (s : State), i.kind = .sty → ∃ m, i.operand = .mem m ∧
    EncodedAs i [(.zp, 0x84#8), (.zpx, 0x94#8), (.abs, 0x8C#8)] ∧
    Completes i s 0 (fun t =>
      RegsAre t s.a s.x s.y s.sp ∧ StoresByte (ea m s) s.y s t ∧ (s.cfg.storeSetsNZ = false → t.p = s.p) ∧
      (s.cfg.storeSetsNZ = true → FlagsZN t s.y ∧ KeepsFlags 0x82#8 s t)))

/-- R231 to R236: the register transfers; TXS writes no flag. The opcodes are R84's, general knowledge (log 18). -/
def Obligations.TransferResults : Prop :=
  ∀ s : State,
    (EncodedAs .tax [(.imp, 0xAA#8)] ∧ Completes .tax s 0 (fun t =>
      RegsAre t s.a s.a s.y s.sp ∧ FlagsZN t s.a ∧ KeepsFlags 0x82#8 s t ∧ KeepsMemory s t)) ∧
    (EncodedAs .tay [(.imp, 0xA8#8)] ∧ Completes .tay s 0 (fun t =>
      RegsAre t s.a s.x s.a s.sp ∧ FlagsZN t s.a ∧ KeepsFlags 0x82#8 s t ∧ KeepsMemory s t)) ∧
    (EncodedAs .tsx [(.imp, 0xBA#8)] ∧ Completes .tsx s 0 (fun t =>
      RegsAre t s.a s.sp s.y s.sp ∧ FlagsZN t s.sp ∧ KeepsFlags 0x82#8 s t ∧ KeepsMemory s t)) ∧
    (EncodedAs .txa [(.imp, 0x8A#8)] ∧ Completes .txa s 0 (fun t =>
      RegsAre t s.x s.x s.y s.sp ∧ FlagsZN t s.x ∧ KeepsFlags 0x82#8 s t ∧ KeepsMemory s t)) ∧
    (EncodedAs .txs [(.imp, 0x9A#8)] ∧ Completes .txs s 0 (fun t =>
      RegsAre t s.a s.x s.y s.x ∧ t.p = s.p ∧ KeepsMemory s t)) ∧
    (EncodedAs .tya [(.imp, 0x98#8)] ∧ Completes .tya s 0 (fun t =>
      RegsAre t s.y s.x s.y s.sp ∧ FlagsZN t s.y ∧ KeepsFlags 0x82#8 s t ∧ KeepsMemory s t))

/-- R250 to R257: each flag instruction writes its one flag, NOP nothing; registers and memory are kept. Which flag
each names and the opcodes are general knowledge (log 18). -/
def Obligations.FlagInstructionResults : Prop :=
  ∀ s : State,
    let keeps := fun (t : State) => RegsAre t s.a s.x s.y s.sp ∧ KeepsMemory s t
    (EncodedAs .clc [(.imp, 0x18#8)] ∧ Completes .clc s 0 (fun t => keeps t ∧ t.carry = false ∧ KeepsFlags 0x01#8 s t)) ∧
    (EncodedAs .cld [(.imp, 0xD8#8)] ∧ Completes .cld s 0 (fun t => keeps t ∧ t.decimal = false ∧ KeepsFlags 0x08#8 s t)) ∧
    (EncodedAs .cli [(.imp, 0x58#8)] ∧
      Completes .cli s 0 (fun t => keeps t ∧ t.interruptDisable = false ∧ KeepsFlags 0x04#8 s t)) ∧
    (EncodedAs .clv [(.imp, 0xB8#8)] ∧ Completes .clv s 0 (fun t => keeps t ∧ t.overflow = false ∧ KeepsFlags 0x40#8 s t)) ∧
    (EncodedAs .sec [(.imp, 0x38#8)] ∧ Completes .sec s 0 (fun t => keeps t ∧ t.carry = true ∧ KeepsFlags 0x01#8 s t)) ∧
    (EncodedAs .sed [(.imp, 0xF8#8)] ∧ Completes .sed s 0 (fun t => keeps t ∧ t.decimal = true ∧ KeepsFlags 0x08#8 s t)) ∧
    (EncodedAs .sei [(.imp, 0x78#8)] ∧
      Completes .sei s 0 (fun t => keeps t ∧ t.interruptDisable = true ∧ KeepsFlags 0x04#8 s t)) ∧
    (EncodedAs .nop [(.imp, 0xEA#8)] ∧ Completes .nop s 0 (fun t => keeps t ∧ t.p = s.p))

/-- R123 to R133: the effective address of every mode that has one, in plain arithmetic; and R103: the operand an
instruction consumes is the byte at that address, or A in Accumulator mode. The wrap past 0xFFFF is decision D12, the
pointer wraps D8 and D11 (log 18); that IMM and REL operands stand decoded is log 10. -/
def Obligations.EffectiveAddresses : Prop :=
  ∀ (b : Byte) (w : Word) (m : MemOperand) (s : State),
    let byteAt := fun (n : Nat) => (memRead s (BitVec.ofNat 16 n)).toNat
    operandByte (.imm b) s = b ∧ operandByte (.rel b) s = b ∧
    (m.mode ≠ .imm → m.mode ≠ .rel → operandByte m s = memRead s (ea m s)) ∧
    operandValue .accumulator s = s.a ∧
    ea (.imm b) s = BitVec.ofNat 16 (s.pc.toNat + 1) ∧
    ea (.rel b) s = BitVec.ofNat 16 (s.pc.toNat + 1) ∧
    ea (.zp b) s = BitVec.ofNat 16 b.toNat ∧
    ea (.zpx b) s = BitVec.ofNat 16 ((b.toNat + s.x.toNat) % 256) ∧
    ea (.zpy b) s = BitVec.ofNat 16 ((b.toNat + s.y.toNat) % 256) ∧
    ea (.abs w) s = w ∧
    ea (.abx w) s = BitVec.ofNat 16 (w.toNat + s.x.toNat) ∧
    ea (.aby w) s = BitVec.ofNat 16 (w.toNat + s.y.toNat) ∧
    ea (.izx b) s = BitVec.ofNat 16
      (byteAt ((b.toNat + s.x.toNat) % 256) + 256 * byteAt ((b.toNat + s.x.toNat + 1) % 256)) ∧
    ea (.izy b) s = BitVec.ofNat 16 (byteAt b.toNat + 256 * byteAt ((b.toNat + 1) % 256) + s.y.toNat) ∧
    (s.cfg.jmpIndPageWrap = true → ea (.ind w) s = BitVec.ofNat 16
      (byteAt w.toNat + 256 * byteAt (w.toNat / 256 * 256 + (w.toNat + 1) % 256))) ∧
    (s.cfg.jmpIndPageWrap = false → ea (.ind w) s = BitVec.ofNat 16
      (byteAt w.toNat + 256 * byteAt (w.toNat + 1)))

/-- R134 with R129, R130 and R133: a page is crossed exactly when the index carries out of the base's low byte, and
only in ABX, ABY and IZY. That a wrap past 0xFFFF counts is decision D12, the pointer wrap D11 (log 18). -/
def Obligations.PageCrossings : Prop :=
  ∀ (m : MemOperand) (s : State),
    crossed m s =
      match m with
      | .abx w => decide (256 ≤ w.toNat % 256 + s.x.toNat)
      | .aby w => decide (256 ≤ w.toNat % 256 + s.y.toNat)
      | .izy b => decide (256 ≤ (memRead s (BitVec.ofNat 16 b.toNat)).toNat + s.y.toNat)
      | _ => false

/-- R268 to R270: at a boundary NMI is entered first, else an IRQ with I = 0: PC and P with B = 0 are pushed, I is set
under INT_SETS_I, B is kept, PC comes from the vector, the cost is INT_ENTRY_CYCLES, and everything else is kept. The
pushed B is decision D17, the mask D18, the latch D19, the priority and cost D20, the stack D2 and D3 (log 18). -/
def Obligations.InterruptEntryEffect : Prop :=
  ∀ (s : State) (vec : Word), s.run = .running → s.owed = 0 →
    (s.nmiPending = true ∧ vec = 0xFFFA#16 ∨
      s.nmiPending = false ∧ s.irqLine = true ∧ s.interruptDisable = false ∧ vec = 0xFFFE#16) →
    ∃ t, step s = .next t ∧ t.nmiPending = false ∧ t.pc = wordAt s vec ∧
      RegsAre t s.a s.x s.y (BitVec.ofNat 8 (s.sp.toNat + 253)) ∧
      t.p = (if s.cfg.intSetsI then s.p ||| 0x04#8 else s.p) ∧
      StoresBytes [(stackAddr s.sp, BitVec.ofNat 8 (s.pc.toNat / 256)), (stackAddr (s.sp - 1), BitVec.ofNat 8 s.pc.toNat),
        (stackAddr (s.sp - 2), (s.p &&& 0xEF#8) ||| 0x20#8)] s t ∧
      t.owed = s.cfg.intEntryCycles - 1 ∧ t.cycles = s.cycles + 1 ∧
      t.irqLine = s.irqLine ∧ t.run = .running ∧ t.cfg = s.cfg

/-- R271: RTI resumes what an interrupt entry interrupted: PC, S, A, X, Y and P as they were, but B is 0 and U is 1.
R271 marks it [derived]; it rests on decisions D17, D2, D3 and D33 (log 18). -/
def Obligations.InterruptThenRtiResumes : Prop :=
  ∀ (s : State) (vec : Word), ∃ u, exec .rti (interruptEntry vec s) = .next u ∧
    u.pc = s.pc ∧ RegsAre u s.a s.x s.y s.sp ∧ u.p = (s.p &&& 0xEF#8) ||| 0x20#8

/-- R261 and R262: a tick that decodes a sentinel changes nothing but `run`, counts no cycle and emits no trace record,
and from then on no step is enabled: the machine has failed with FatalDecode. The recorded pair and the fault are
decision D30, no trace record D31 (log 18); the halting next state is deduced (log 8). -/
def Obligations.FatalDecodeHaltsTheCore : Prop :=
  (∀ (s : State) (op : Byte), AtBoundary s → fetch s = .sentinel op →
    step s = .next { s with run := .halted (.fatalDecode s.pc op) } ∧ traceRecord s = none) ∧
  (∀ (s : State) (f : Fault), s.run = .halted f →
    step s = .fault f ∧ move .nmiRaise s = .next s ∧ move .stop s = .next s)

/-- R260, R262 and R263: a step fails exactly in a halted state, and every other step, an access to an unmapped address
or an undefined opcode included, answers a next state. That a halted state's step is the fault is decision D30 (logs 8
and 18); Reset and Stopped are log 9. -/
def Obligations.OnlyHaltedStatesFail : Prop :=
  ∀ s : State, (Failed (step s) ↔ ∃ f, s.run = .halted f) ∧ ((∀ f, s.run ≠ .halted f) → ∃ t, step s = .next t)

/-- R306 and R268: the tick by cases: idle while cycles are owed; at a boundary NMI, then IRQ with I = 0, then the
instruction at PC, whose tick is counted unless it halted the core; nothing in Reset and Stopped; the fault in Halted.
The order of step and count is decision D24, the priority D20 (log 18); the tick in Reset and the fault are deduced
(logs 8 and 9). -/
def Obligations.TickByCases : Prop :=
  ∀ s : State,
    (s.run = .running → 0 < s.owed → step s = .next { s with owed := s.owed - 1, cycles := s.cycles + 1 }) ∧
    (s.run = .running → s.owed = 0 → s.nmiPending = true →
      step s = .next (countTick (interruptEntry 0xFFFA#16 { s with nmiPending := false }))) ∧
    (s.run = .running → s.owed = 0 → s.nmiPending = false → s.irqLine = true → s.interruptDisable = false →
      step s = .next (countTick (interruptEntry 0xFFFE#16 s))) ∧
    (AtBoundary s → boundary s = exec (fetch s) s ∧ ∃ t, exec (fetch s) s = .next t ∧
      step s = .next (if t.run = .running then { t with owed := t.owed - 1, cycles := t.cycles + 1 } else t)) ∧
    (s.run = .stopped ∨ s.run = .reset → step s = .next s) ∧
    (∀ f, s.run = .halted f → step s = .fault f)

/-- R306: an instruction or interrupt entry of cost c that starts at a boundary takes c ticks: after n of them, n from
1 to c, the state is the one it left with n cycles counted and c − n owed. R306 marks it [derived], from decision D24
(log 18); the cost in `owed` is log 7. -/
def Obligations.CostIsTicks : Prop :=
  ∀ (s b : State), s.run = .running → s.owed = 0 → boundary s = .next b → b.run = .running →
    ∀ n, 1 ≤ n → n ≤ b.owed →
      Host.Core.run Sys2Proof.core n s = .next { b with owed := b.owed - n, cycles := s.cycles + n }

/-- R93, R94, R95 and R313: under the default cost tables, base plus fixed extra of each opcode, row by row of the
opcode map; 0 stands for a sentinel. The tables are decision D14, general knowledge (log 18). -/
def Obligations.CostTable : Prop :=
  ((List.range 256).map (fun op =>
    let i := romLookup (BitVec.ofNat 8 op) 0 0
    baseCost defaultConfig.cycleTable i.kind i.mode + fixedExtra i.kind i.mode)) =
    [7, 6, 0, 0, 0, 3, 5, 0, 3, 2, 2, 0, 0, 4, 6, 0] ++ [2, 5, 0, 0, 0, 4, 6, 0, 2, 4, 0, 0, 0, 4, 7, 0] ++
    [6, 6, 0, 0, 3, 3, 5, 0, 4, 2, 2, 0, 4, 4, 6, 0] ++ [2, 5, 0, 0, 0, 4, 6, 0, 2, 4, 0, 0, 0, 4, 7, 0] ++
    [6, 6, 0, 0, 0, 3, 5, 0, 3, 2, 2, 0, 3, 4, 6, 0] ++ [2, 5, 0, 0, 0, 4, 6, 0, 2, 4, 0, 0, 0, 4, 7, 0] ++
    [6, 6, 0, 0, 0, 3, 5, 0, 4, 2, 2, 0, 5, 4, 6, 0] ++ [2, 5, 0, 0, 0, 4, 6, 0, 2, 4, 0, 0, 0, 4, 7, 0] ++
    [0, 6, 0, 0, 3, 3, 3, 0, 2, 0, 2, 0, 4, 4, 4, 0] ++ [2, 6, 0, 0, 4, 4, 4, 0, 2, 5, 2, 0, 0, 5, 0, 0] ++
    [2, 6, 2, 0, 3, 3, 3, 0, 2, 2, 2, 0, 4, 4, 4, 0] ++ [2, 5, 0, 0, 4, 4, 4, 0, 2, 4, 2, 0, 4, 4, 4, 0] ++
    [2, 6, 0, 0, 3, 3, 5, 0, 2, 2, 2, 0, 4, 4, 6, 0] ++ [2, 5, 0, 0, 0, 4, 6, 0, 2, 4, 0, 0, 0, 4, 7, 0] ++
    [2, 6, 0, 0, 3, 3, 5, 0, 2, 2, 2, 0, 4, 4, 6, 0] ++ [2, 5, 0, 0, 0, 4, 6, 0, 2, 4, 0, 0, 0, 4, 7, 0]

/-- R54, R70 and R303: loading a PRG image of one or two banks before reset: each address from 0x8000 on reads the
image's byte, a one-bank image twice over, and nothing else changes but the number of banks. The two sizes and the
order are decision D26 (log 18), the move logs 13 and 14. -/
def Obligations.LoadPlacesImage : Prop :=
  ∀ (prg : List Byte) (s : State), s.run = .reset → prg.length = 0x4000 ∨ prg.length = 0x8000 →
    ∃ t, move (.load prg) s = .next t ∧
      (∀ a : Word, 0x8000 ≤ a.toNat → memRead t a = prg.getD ((a.toNat - 0x8000) % prg.length) 0x00#8) ∧
      (∀ a : Word, a.toNat < 0x8000 → memRead t a = memRead s a) ∧
      (t.cfg.prgBanks = .one ↔ prg.length = 0x4000) ∧
      t = { s with mem := t.mem, cfg := { s.cfg with prgBanks := t.cfg.prgBanks } }

/-- R301: the reset sequence from any memory and any setting of RESET_REGS: PC from the reset vector, S, I, U, cycles,
owed and the NMI latch as the rule says, no memory written. RESET_REGS is decision D22, the latch D19, `owed` D24 (log
18); the cost test is log 15. -/
def Obligations.ResetSequenceEffect : Prop :=
  ∀ s : State, s.run = .reset → costsAdmitted s.cfg = true → ∃ t, move .reset s = .next t ∧
    RegsAre t s.cfg.resetRegs.a s.cfg.resetRegs.x s.cfg.resetRegs.y 0xFD#8 ∧
    t.interruptDisable = true ∧ t.unused = true ∧
    t.carry = s.cfg.resetRegs.carry ∧ t.zero = s.cfg.resetRegs.zero ∧ t.decimal = s.cfg.resetRegs.decimal ∧
    t.brk = s.cfg.resetRegs.brk ∧ t.overflow = s.cfg.resetRegs.overflow ∧ t.negative = s.cfg.resetRegs.negative ∧
    t.pc = wordAt s 0xFFFC#16 ∧ t.cycles = 7 ∧ t.owed = 0 ∧ t.nmiPending = false ∧ t.run = .running ∧
    t.mem = s.mem ∧ t.cfg = s.cfg

/-- The state after reset with the default parameters and no image loaded: the values of R42 and R302, and those the
model chose (logs 2 to 6): one bank, RAM and PRG reading 0, PC 0x0000, the IRQ line low. -/
def Obligations.ResetStateValues : Prop :=
  move .reset State.beforeReset = .next State.reset ∧
  RegsAre State.reset 0x00#8 0x00#8 0x00#8 0xFD#8 ∧ State.reset.p = 0x24#8 ∧ State.reset.cycles = 7 ∧
  State.reset.owed = 0 ∧ State.reset.nmiPending = false ∧ State.reset.run = .running ∧
  State.reset.pc = 0x0000#16 ∧ State.reset.irqLine = false ∧ (∀ a : Word, memRead State.reset a = 0x00#8)

/-- The invariant holds right after reset. The form of memory is the model's choice (log 12). -/
def Obligations.ResetMeetsInvariant : Prop := MachineInv State.reset

/-- Every step keeps the invariant: memory in canonical form and inside the map, and the unused bit 1 once reset is
done (R32). The form of memory is the model's choice (log 12). -/
def Obligations.StepKeepsInvariant : Prop :=
  ∀ s t : State, MachineInv s → step s = .next t → MachineInv t

/-- Every move of the host keeps the invariant; the state before reset meets it, and so do the states after the load of
any image and after the reset sequence that follows, with the unused bit 1. The form of memory and the moves are the
model's choice (logs 12, 13 and 14). -/
def Obligations.MovesKeepInvariant : Prop :=
  (∀ (m : Move) (s t : State), MachineInv s → move m s = .next t → MachineInv t) ∧
  MachineInv State.beforeReset ∧
  (∀ prg : List Byte, prg.length = 0x4000 ∨ prg.length = 0x8000 →
    ∃ t u, move (.load prg) State.beforeReset = .next t ∧ move .reset t = .next u ∧
      MachineInv t ∧ MachineInv u ∧ u.unused = true)

/-- R314: what a boundary does to A, X, Y, S, P, PC, memory, the inputs and `run` does not depend on the cycle
counters, the cost tables or the other parameters that bear on cost alone. R314 marks it [derived]. -/
def Obligations.ArchitectureIndependentOfTiming : Prop :=
  ∀ s t : State, AgreesButTiming s t →
    ∃ s' t', boundary s = .next s' ∧ boundary t = .next t' ∧ AgreesButTiming s' t'

/-- R38, R309: no instruction reads or writes the elapsed-cycle counter, the NMI latch or the IRQ line, and none writes
the parameters; `run` changes only to Halted, by the sentinel. The latch and the line are decision D19 (log 18). -/
def Obligations.ControlStateInvisible : Prop :=
  ∀ (i : Instr) (s t : State) (cycles : Nat) (nmi irq : Bool), exec i s = .next t →
    exec i (withControl cycles nmi irq s) = .next (withControl cycles nmi irq t) ∧
    t.cycles = s.cycles ∧ t.nmiPending = s.nmiPending ∧ t.irqLine = s.irqLine ∧ t.cfg = s.cfg ∧
    (t.run ≠ s.run → ∃ op, i = .sentinel op ∧ t.run = .halted (.fatalDecode s.pc op))

/-- R27, R29, R30, R31, R33: only the instructions these rules list may change C, I, D, B or V; a set unused bit is
never cleared (R32). It states what those rules say of writing, not of reading; I under BRK is decision D16 (log
18). -/
def Obligations.FlagWriters : Prop :=
  ∀ (i : Instr) (s t : State), exec i s = .next t →
    (t.carry ≠ s.carry → i.kind ∈ ([.adc, .sbc, .cmp, .cpx, .cpy, .asl, .lsr, .rol, .ror, .clc, .sec, .plp, .rti] : List Kind)) ∧
    (t.interruptDisable ≠ s.interruptDisable → i.kind ∈ ([.cli, .sei, .plp, .rti] : List Kind) ∨
      (i.kind = .brk ∧ s.cfg.brkSetsI = true)) ∧
    (t.decimal ≠ s.decimal → i.kind ∈ ([.cld, .sed, .plp, .rti] : List Kind)) ∧
    (t.brk ≠ s.brk → i.kind ∈ ([.brk, .rti] : List Kind)) ∧
    (t.overflow ≠ s.overflow → i.kind ∈ ([.adc, .sbc, .bit, .clv, .plp, .rti] : List Kind)) ∧
    (s.unused = true → t.unused = true)

/-- R21 to R24 and R61: only the instructions these rules list may change A, X, Y or S, and only a store, a
read-modify-write on memory and a push may change a byte of memory. It states what those rules say of writing, not of
reading; no other accesses is decision D29 (log 18). -/
def Obligations.RegisterAndMemoryWriters : Prop :=
  ∀ (i : Instr) (s t : State), exec i s = .next t →
    (t.a ≠ s.a → i.kind ∈ ([.adc, .sbc, .and, .ora, .eor, .lda, .pla, .txa, .tya] : List Kind) ∨
      (i.kind ∈ ([.asl, .lsr, .rol, .ror] : List Kind) ∧ i.mode = .acc)) ∧
    (t.x ≠ s.x → i.kind ∈ ([.ldx, .tax, .tsx, .inx, .dex] : List Kind)) ∧
    (t.y ≠ s.y → i.kind ∈ ([.ldy, .tay, .iny, .dey] : List Kind)) ∧
    (t.sp ≠ s.sp → i.kind ∈ ([.txs, .pha, .php, .pla, .plp, .jsr, .rts, .rti, .brk] : List Kind)) ∧
    ((i.kind ∉ ([.sta, .stx, .sty, .inc, .dec, .pha, .php, .jsr, .brk] : List Kind) ∧
      (i.kind ∉ ([.asl, .lsr, .rol, .ror] : List Kind) ∨ i.mode = .acc)) → KeepsMemory s t)

/-- R265 to R267 and R307: what the host's inputs do: nmi_raise sets the latch while the core is not Halted or Stopped,
the IRQ line is a level, stop makes a running core Stopped for good, and none of them does anything else. The latch and
the level are decision D19, the stop D36 (log 18); the moves are log 13, a raise or a stop before reset log 20, `owed`
after the stop log 22. -/
def Obligations.HostInputs : Prop :=
  ∀ s : State,
    (s.run = .running ∨ s.run = .reset → move .nmiRaise s = .next { s with nmiPending := true }) ∧
    (s.run = .stopped ∨ (∃ f, s.run = .halted f) → move .nmiRaise s = .next s) ∧
    (∀ level, move (.irqLine level) s = .next { s with irqLine := level }) ∧
    (s.run = .running → move .stop s = .next { s with run := .stopped }) ∧
    (s.run = .reset ∨ (∃ f, s.run = .halted f) → move .stop s = .next s) ∧
    (s.run = .stopped → move .stop s = .next s ∧ move .tick s = .next s ∧ move .reset s = .next s)

/-- R107: the trace record of the instruction a tick executes: PC, the bytes at PC, kind, mode and resolved address,
and the registers and `cycles` before its effects; none while idle, on an interrupt entry, and when not running. When
it is taken is decision D31 (log 18); that it is a function of the state is log 16. -/
def Obligations.TraceRecordIsBoundaryState : Prop :=
  ∀ s : State,
    (AtBoundary s → (fetch s).kind ≠ .noInstruction → ∃ r, traceRecord s = some r ∧
      r.programCounter = s.pc ∧ r.opcodeByte = memRead s s.pc ∧
      r.rawOperandBytes = [memRead s (s.pc + 1), memRead s (s.pc + 2)].take ((fetch s).length - 1) ∧
      r.instructionKind = (fetch s).kind ∧ r.addressingMode = (fetch s).mode ∧
      (∀ m, (fetch s).operand = .mem m → r.resolvedAddress = some (ea m s)) ∧
      ((fetch s).mode ∈ ([.imp, .acc] : List Mode) → r.resolvedAddress = none) ∧
      r.accumulator = s.a ∧ r.indexX = s.x ∧ r.indexY = s.y ∧ r.statusFlags = s.p ∧ r.stackPointer = s.sp ∧
      r.elapsedCycleCount = s.cycles) ∧
    (¬ AtBoundary s → traceRecord s = none)

/-- R315: a run ends at the first boundary at which PC = a, no interrupt is taken and the core runs, or in Stopped or
Halted; a program claim's end address is one at which the image holds the self-jump. At an end boundary that memory
holds the self-jump at, the instruction at PC is that JMP (R199), it runs, and only its cost in `owed` is new, so that
after its ticks the core is at such a boundary again with nothing but `cycles` changed. The end of a run is decision
D37 (log 18), how the boundary is told is log 23. -/
def Obligations.SelfJumpStaysAtEnd : Prop :=
  (∀ (a : Word) (moves : List Move) (s t : State), runToEnd (some a) moves s = .endAt t ↔ FirstEndAt a moves s t) ∧
  (∀ (a : Option Word) (moves : List Move) (s t : State),
    (runToEnd a moves s = .stopped t → t.run = .stopped ∧ LeadsTo moves s t) ∧
    (∀ f, runToEnd a moves s = .halted f t → t.run = .halted f ∧ LeadsTo moves s t) ∧
    (runToEnd none moves s ≠ .endAt t)) ∧
  (∀ (prg : List Byte) (a : Word) (moves : List Move) (s t : State), runProgram prg (some a) moves s = .endAt t →
    imageHoldsSelfJump prg a = true ∧ FirstEndAt a (.load prg :: .reset :: moves) s t) ∧
  (∀ (s : State) (a : Word), EndsAt a s → HoldsSelfJump a s →
    fetch s = .jmpAbs a ∧
    exec (fetch s) s = .next { s with owed := baseCost s.cfg.cycleTable .jmp .abs } ∧
    (∀ c, c = baseCost s.cfg.cycleTable .jmp .abs → 0 < c →
      Host.Core.run Sys2Proof.core c s = .next { s with cycles := s.cycles + c } ∧
      EndsAt a { s with cycles := s.cycles + c }))
end

