-- ==== Sys2Proof/Laws/Memory.lean ====
section
/-! SUPPORT. The laws of the memory list and of MemRead and MemWrite: a read after a write, and the canonical form,
which every memory operation keeps. -/

namespace Sys2Proof.Machine

theorem Memory.get_erase_same (m : Memory) (k : Nat) : (m.erase k).get k = unlisted k := by
  induction m with
  | nil => rfl
  | cons c rest ih =>
    obtain ⟨k', v⟩ := c
    simp only [Memory.erase]
    split
    · exact ih
    · next h => simp [Memory.get, h, ih]

theorem Memory.get_erase_other (m : Memory) {j k : Nat} (h : j ≠ k) : (m.erase k).get j = m.get j := by
  induction m with
  | nil => rfl
  | cons c rest ih =>
    obtain ⟨k', v⟩ := c
    simp only [Memory.erase]
    split
    · next hk => subst hk; simp [Memory.get, Ne.symm h, ih]
    · simp only [Memory.get, ih]

theorem Memory.get_insert_same (m : Memory) (k : Nat) (v : Byte) : ((m.erase k).insert k v).get k = v := by
  induction m with
  | nil => simp [Memory.erase, Memory.insert, Memory.get]
  | cons c rest ih =>
    obtain ⟨k', v'⟩ := c
    simp only [Memory.erase]
    split
    · exact ih
    · next h =>
      simp only [Memory.insert]
      split
      · simp [Memory.get]
      · simp [Memory.get, h, ih]

theorem Memory.get_insert_other (m : Memory) {j k : Nat} (v : Byte) (h : j ≠ k) : (m.insert k v).get j = m.get j := by
  induction m with
  | nil => simp [Memory.insert, Memory.get, Ne.symm h]
  | cons c rest ih =>
    obtain ⟨k', v'⟩ := c
    simp only [Memory.insert]
    split
    · simp [Memory.get, Ne.symm h]
    · simp only [Memory.get, ih]

/-- A read after a write to the same location gives the byte written. -/
@[simp] theorem Memory.get_set_same (m : Memory) (k : Nat) (v : Byte) : (m.set k v).get k = v := by
  unfold Memory.set
  split
  · next h => rw [Memory.get_erase_same, h]
  · exact Memory.get_insert_same m k v

/-- A write leaves every other location alone. -/
theorem Memory.get_set_other (m : Memory) {j k : Nat} (v : Byte) (h : j ≠ k) : (m.set k v).get j = m.get j := by
  unfold Memory.set
  split
  · exact Memory.get_erase_other m h
  · rw [Memory.get_insert_other _ v h, Memory.get_erase_other m h]

theorem Memory.get_set (m : Memory) (j k : Nat) (v : Byte) :
    (m.set k v).get j = if j = k then v else m.get j := by
  split
  · next h => subst h; exact Memory.get_set_same m j v
  · next h => exact Memory.get_set_other m v h

theorem Memory.all_erase (m : Memory) (k : Nat) (f : Host.Cell → Bool) (h : m.all f) : (m.erase k).all f := by
  induction m with
  | nil => rfl
  | cons c rest ih =>
    obtain ⟨k', v⟩ := c
    simp only [List.all_cons, Bool.and_eq_true] at h
    simp only [Memory.erase]
    split
    · exact ih h.2
    · simp [h.1, ih h.2]

theorem Memory.all_insert (m : Memory) (k : Nat) (v : Byte) (f : Host.Cell → Bool) (h : m.all f) (hk : f (k, v)) :
    (m.insert k v).all f := by
  induction m with
  | nil => simpa [Memory.insert] using hk
  | cons c rest ih =>
    obtain ⟨k', v'⟩ := c
    simp only [List.all_cons, Bool.and_eq_true] at h
    simp only [Memory.insert]
    split
    · simp only [List.all_cons, Bool.and_eq_true]; exact ⟨hk, h⟩
    · simp [h.1, ih h.2]

theorem Memory.erase_wf (m : Memory) (k : Nat) (h : m.wf) : (m.erase k).wf := by
  induction m with
  | nil => rfl
  | cons c rest ih =>
    obtain ⟨k', v⟩ := c
    simp only [Memory.wf, Bool.and_eq_true] at h
    simp only [Memory.erase]
    split
    · exact ih h.2
    · simp only [Memory.wf, Bool.and_eq_true]
      exact ⟨⟨h.1.1, Memory.all_erase rest k _ h.1.2⟩, ih h.2⟩

theorem Memory.erase_absent (m : Memory) (k : Nat) : (m.erase k).all (fun c => c.1 != k) := by
  induction m with
  | nil => rfl
  | cons c rest ih =>
    obtain ⟨k', v⟩ := c
    simp only [Memory.erase]
    split
    · exact ih
    · next h => simp only [List.all_cons, ih, Bool.and_true, bne_iff_ne]; exact h

theorem Memory.insert_wf (m : Memory) (k : Nat) (v : Byte) (h : m.wf) (hv : v ≠ unlisted k)
    (hk : m.all (fun c => c.1 != k)) : (m.insert k v).wf := by
  induction m with
  | nil => simp [Memory.insert, Memory.wf, hv]
  | cons c rest ih =>
    obtain ⟨k', v'⟩ := c
    simp only [List.all_cons, Bool.and_eq_true, bne_iff_ne] at hk
    have hw := h
    simp only [Memory.wf, Bool.and_eq_true] at h
    simp only [Memory.insert]
    split
    · next hlt =>
      simp only [Memory.wf, Bool.and_eq_true, bne_iff_ne, List.all_cons, decide_eq_true_eq]
      refine ⟨⟨hv, hlt, ?_⟩, by simpa [Memory.wf] using hw⟩
      have h2 := h.1.2
      simp only [List.all_eq_true, decide_eq_true_eq] at h2 ⊢
      exact fun c hc => Nat.lt_trans hlt (h2 c hc)
    · next hge =>
      simp only [Memory.wf, Bool.and_eq_true]
      refine ⟨⟨h.1.1, Memory.all_insert rest k v _ h.1.2 ?_⟩, ih h.2 hk.2⟩
      have := hk.1
      simp only [decide_eq_true_eq]
      omega

/-- A write keeps the canonical form. -/
theorem Memory.set_wf (m : Memory) (k : Nat) (v : Byte) (h : m.wf) : (m.set k v).wf := by
  unfold Memory.set
  split
  · exact Memory.erase_wf m k h
  · next hv => exact Memory.insert_wf _ k v (Memory.erase_wf m k h) hv (Memory.erase_absent m k)

/-- A write to a location of the map keeps every entry in the map. -/
theorem Memory.set_inMap (b : Banks) (m : Memory) (k : Nat) (v : Byte) (h : m.inMap b) (hk : isLocation b k) :
    (m.set k v).inMap b := by
  unfold Memory.inMap at *
  unfold Memory.set
  split
  · exact Memory.all_erase m k _ h
  · exact Memory.all_insert _ k v _ (Memory.all_erase m k _ h) hk

/-- A PRG offset is a byte of PRG ROM. -/
theorem prgOffset_lt (b : Banks) (a : Word) : prgOffset b a < prgSize b := by
  have h := a.isLt
  cases b
  · show (a.toNat - 0x8000) % 0x4000 < 0x4000
    omega
  · show a.toNat - 0x8000 < 0x8000
    omega

/-- An address reaches a location of the map or none. -/
theorem locate_isLocation (b : Banks) (a : Word) (k : Nat) (h : locate b a = some k) : isLocation b k := by
  have hp := prgOffset_lt b a
  unfold locate at h
  unfold isLocation
  generalize prgOffset b a = o at *
  generalize prgSize b = z at *
  simp only [Bool.or_eq_true, Bool.and_eq_true, decide_eq_true_eq]
  split at h
  · injection h with h
    omega
  · split at h
    · exact absurd h (by simp)
    · injection h with h
      omega

/-- What MemWrite does to memory: the one location the address reaches, if any. -/
theorem memRead_memWrite (s : State) (a b : Word) (v : Byte) :
    memRead (memWrite a v s) b =
      if locate s.cfg.prgBanks b = locate s.cfg.prgBanks a ∧ (locate s.cfg.prgBanks a).isSome then v
      else memRead s b := by
  unfold memWrite memRead
  cases ha : locate s.cfg.prgBanks a with
  | none => simp
  | some k =>
    cases hb : locate s.cfg.prgBanks b with
    | none => simp
    | some j => simp [Memory.get_set]

theorem memWrite_wf (a : Word) (v : Byte) (s : State) (h : s.mem.wf) : (memWrite a v s).mem.wf := by
  unfold memWrite
  split
  · exact h
  · exact Memory.set_wf _ _ _ h

theorem memWrite_inMap (a : Word) (v : Byte) (s : State) (h : s.mem.inMap s.cfg.prgBanks) :
    (memWrite a v s).mem.inMap s.cfg.prgBanks := by
  unfold memWrite
  split
  · exact h
  · next hk => exact Memory.set_inMap _ _ _ _ h (locate_isLocation _ _ _ hk)

/-- A read looks at memory and the bank count alone. -/
theorem memRead_congr {s t : State} (hm : t.mem = s.mem) (hb : t.cfg = s.cfg) (a : Word) : memRead t a = memRead s a := by
  unfold memRead; rw [hm, hb]

/-- The stack address is a RAM location of its own for each S (R24). -/
theorem locate_stackAddr (b : Banks) (sp : Byte) : locate b (stackAddr sp) = some (0x100 + sp.toNat) := by
  have h := sp.isLt
  have e : (stackAddr sp).toNat = 0x100 + sp.toNat := by
    simp only [stackAddr, zext16, BitVec.toNat_add, BitVec.toNat_setWidth, BitVec.toNat_ofNat]
    omega
  simp only [locate, e]
  split
  · congr 1; omega
  · omega

end Sys2Proof.Machine
end

