-- ==== Sys2Proof/Laws/State.lean ====
section
/-! SUPPORT. One lemma per field per update of State, so that no later proof unfolds a record update. -/

namespace Sys2Proof.Machine

@[simp] theorem setC_a (b : Bool) (s : State) : (setC b s).a = s.a := rfl
@[simp] theorem setC_x (b : Bool) (s : State) : (setC b s).x = s.x := rfl
@[simp] theorem setC_y (b : Bool) (s : State) : (setC b s).y = s.y := rfl
@[simp] theorem setC_sp (b : Bool) (s : State) : (setC b s).sp = s.sp := rfl
@[simp] theorem setC_p (b : Bool) (s : State) : (setC b s).p = setBit 0 b s.p := rfl
@[simp] theorem setC_pc (b : Bool) (s : State) : (setC b s).pc = s.pc := rfl
@[simp] theorem setC_cycles (b : Bool) (s : State) : (setC b s).cycles = s.cycles := rfl
@[simp] theorem setC_owed (b : Bool) (s : State) : (setC b s).owed = s.owed := rfl
@[simp] theorem setC_nmiPending (b : Bool) (s : State) : (setC b s).nmiPending = s.nmiPending := rfl
@[simp] theorem setC_irqLine (b : Bool) (s : State) : (setC b s).irqLine = s.irqLine := rfl
@[simp] theorem setC_run (b : Bool) (s : State) : (setC b s).run = s.run := rfl
@[simp] theorem setC_mem (b : Bool) (s : State) : (setC b s).mem = s.mem := rfl
@[simp] theorem setC_cfg (b : Bool) (s : State) : (setC b s).cfg = s.cfg := rfl

@[simp] theorem setZ_a (b : Bool) (s : State) : (setZ b s).a = s.a := rfl
@[simp] theorem setZ_x (b : Bool) (s : State) : (setZ b s).x = s.x := rfl
@[simp] theorem setZ_y (b : Bool) (s : State) : (setZ b s).y = s.y := rfl
@[simp] theorem setZ_sp (b : Bool) (s : State) : (setZ b s).sp = s.sp := rfl
@[simp] theorem setZ_p (b : Bool) (s : State) : (setZ b s).p = setBit 1 b s.p := rfl
@[simp] theorem setZ_pc (b : Bool) (s : State) : (setZ b s).pc = s.pc := rfl
@[simp] theorem setZ_cycles (b : Bool) (s : State) : (setZ b s).cycles = s.cycles := rfl
@[simp] theorem setZ_owed (b : Bool) (s : State) : (setZ b s).owed = s.owed := rfl
@[simp] theorem setZ_nmiPending (b : Bool) (s : State) : (setZ b s).nmiPending = s.nmiPending := rfl
@[simp] theorem setZ_irqLine (b : Bool) (s : State) : (setZ b s).irqLine = s.irqLine := rfl
@[simp] theorem setZ_run (b : Bool) (s : State) : (setZ b s).run = s.run := rfl
@[simp] theorem setZ_mem (b : Bool) (s : State) : (setZ b s).mem = s.mem := rfl
@[simp] theorem setZ_cfg (b : Bool) (s : State) : (setZ b s).cfg = s.cfg := rfl

@[simp] theorem setI_a (b : Bool) (s : State) : (setI b s).a = s.a := rfl
@[simp] theorem setI_x (b : Bool) (s : State) : (setI b s).x = s.x := rfl
@[simp] theorem setI_y (b : Bool) (s : State) : (setI b s).y = s.y := rfl
@[simp] theorem setI_sp (b : Bool) (s : State) : (setI b s).sp = s.sp := rfl
@[simp] theorem setI_p (b : Bool) (s : State) : (setI b s).p = setBit 2 b s.p := rfl
@[simp] theorem setI_pc (b : Bool) (s : State) : (setI b s).pc = s.pc := rfl
@[simp] theorem setI_cycles (b : Bool) (s : State) : (setI b s).cycles = s.cycles := rfl
@[simp] theorem setI_owed (b : Bool) (s : State) : (setI b s).owed = s.owed := rfl
@[simp] theorem setI_nmiPending (b : Bool) (s : State) : (setI b s).nmiPending = s.nmiPending := rfl
@[simp] theorem setI_irqLine (b : Bool) (s : State) : (setI b s).irqLine = s.irqLine := rfl
@[simp] theorem setI_run (b : Bool) (s : State) : (setI b s).run = s.run := rfl
@[simp] theorem setI_mem (b : Bool) (s : State) : (setI b s).mem = s.mem := rfl
@[simp] theorem setI_cfg (b : Bool) (s : State) : (setI b s).cfg = s.cfg := rfl

@[simp] theorem setD_a (b : Bool) (s : State) : (setD b s).a = s.a := rfl
@[simp] theorem setD_x (b : Bool) (s : State) : (setD b s).x = s.x := rfl
@[simp] theorem setD_y (b : Bool) (s : State) : (setD b s).y = s.y := rfl
@[simp] theorem setD_sp (b : Bool) (s : State) : (setD b s).sp = s.sp := rfl
@[simp] theorem setD_p (b : Bool) (s : State) : (setD b s).p = setBit 3 b s.p := rfl
@[simp] theorem setD_pc (b : Bool) (s : State) : (setD b s).pc = s.pc := rfl
@[simp] theorem setD_cycles (b : Bool) (s : State) : (setD b s).cycles = s.cycles := rfl
@[simp] theorem setD_owed (b : Bool) (s : State) : (setD b s).owed = s.owed := rfl
@[simp] theorem setD_nmiPending (b : Bool) (s : State) : (setD b s).nmiPending = s.nmiPending := rfl
@[simp] theorem setD_irqLine (b : Bool) (s : State) : (setD b s).irqLine = s.irqLine := rfl
@[simp] theorem setD_run (b : Bool) (s : State) : (setD b s).run = s.run := rfl
@[simp] theorem setD_mem (b : Bool) (s : State) : (setD b s).mem = s.mem := rfl
@[simp] theorem setD_cfg (b : Bool) (s : State) : (setD b s).cfg = s.cfg := rfl

@[simp] theorem setB_a (b : Bool) (s : State) : (setB b s).a = s.a := rfl
@[simp] theorem setB_x (b : Bool) (s : State) : (setB b s).x = s.x := rfl
@[simp] theorem setB_y (b : Bool) (s : State) : (setB b s).y = s.y := rfl
@[simp] theorem setB_sp (b : Bool) (s : State) : (setB b s).sp = s.sp := rfl
@[simp] theorem setB_p (b : Bool) (s : State) : (setB b s).p = setBit 4 b s.p := rfl
@[simp] theorem setB_pc (b : Bool) (s : State) : (setB b s).pc = s.pc := rfl
@[simp] theorem setB_cycles (b : Bool) (s : State) : (setB b s).cycles = s.cycles := rfl
@[simp] theorem setB_owed (b : Bool) (s : State) : (setB b s).owed = s.owed := rfl
@[simp] theorem setB_nmiPending (b : Bool) (s : State) : (setB b s).nmiPending = s.nmiPending := rfl
@[simp] theorem setB_irqLine (b : Bool) (s : State) : (setB b s).irqLine = s.irqLine := rfl
@[simp] theorem setB_run (b : Bool) (s : State) : (setB b s).run = s.run := rfl
@[simp] theorem setB_mem (b : Bool) (s : State) : (setB b s).mem = s.mem := rfl
@[simp] theorem setB_cfg (b : Bool) (s : State) : (setB b s).cfg = s.cfg := rfl

@[simp] theorem setV_a (b : Bool) (s : State) : (setV b s).a = s.a := rfl
@[simp] theorem setV_x (b : Bool) (s : State) : (setV b s).x = s.x := rfl
@[simp] theorem setV_y (b : Bool) (s : State) : (setV b s).y = s.y := rfl
@[simp] theorem setV_sp (b : Bool) (s : State) : (setV b s).sp = s.sp := rfl
@[simp] theorem setV_p (b : Bool) (s : State) : (setV b s).p = setBit 6 b s.p := rfl
@[simp] theorem setV_pc (b : Bool) (s : State) : (setV b s).pc = s.pc := rfl
@[simp] theorem setV_cycles (b : Bool) (s : State) : (setV b s).cycles = s.cycles := rfl
@[simp] theorem setV_owed (b : Bool) (s : State) : (setV b s).owed = s.owed := rfl
@[simp] theorem setV_nmiPending (b : Bool) (s : State) : (setV b s).nmiPending = s.nmiPending := rfl
@[simp] theorem setV_irqLine (b : Bool) (s : State) : (setV b s).irqLine = s.irqLine := rfl
@[simp] theorem setV_run (b : Bool) (s : State) : (setV b s).run = s.run := rfl
@[simp] theorem setV_mem (b : Bool) (s : State) : (setV b s).mem = s.mem := rfl
@[simp] theorem setV_cfg (b : Bool) (s : State) : (setV b s).cfg = s.cfg := rfl

@[simp] theorem setN_a (b : Bool) (s : State) : (setN b s).a = s.a := rfl
@[simp] theorem setN_x (b : Bool) (s : State) : (setN b s).x = s.x := rfl
@[simp] theorem setN_y (b : Bool) (s : State) : (setN b s).y = s.y := rfl
@[simp] theorem setN_sp (b : Bool) (s : State) : (setN b s).sp = s.sp := rfl
@[simp] theorem setN_p (b : Bool) (s : State) : (setN b s).p = setBit 7 b s.p := rfl
@[simp] theorem setN_pc (b : Bool) (s : State) : (setN b s).pc = s.pc := rfl
@[simp] theorem setN_cycles (b : Bool) (s : State) : (setN b s).cycles = s.cycles := rfl
@[simp] theorem setN_owed (b : Bool) (s : State) : (setN b s).owed = s.owed := rfl
@[simp] theorem setN_nmiPending (b : Bool) (s : State) : (setN b s).nmiPending = s.nmiPending := rfl
@[simp] theorem setN_irqLine (b : Bool) (s : State) : (setN b s).irqLine = s.irqLine := rfl
@[simp] theorem setN_run (b : Bool) (s : State) : (setN b s).run = s.run := rfl
@[simp] theorem setN_mem (b : Bool) (s : State) : (setN b s).mem = s.mem := rfl
@[simp] theorem setN_cfg (b : Bool) (s : State) : (setN b s).cfg = s.cfg := rfl

@[simp] theorem setZN_a (v : Byte) (s : State) : (setZN v s).a = s.a := rfl
@[simp] theorem setZN_x (v : Byte) (s : State) : (setZN v s).x = s.x := rfl
@[simp] theorem setZN_y (v : Byte) (s : State) : (setZN v s).y = s.y := rfl
@[simp] theorem setZN_sp (v : Byte) (s : State) : (setZN v s).sp = s.sp := rfl
@[simp] theorem setZN_p (v : Byte) (s : State) : (setZN v s).p = setBit 7 (v.getLsbD 7) (setBit 1 (v == 0#8) s.p) := rfl
@[simp] theorem setZN_pc (v : Byte) (s : State) : (setZN v s).pc = s.pc := rfl
@[simp] theorem setZN_cycles (v : Byte) (s : State) : (setZN v s).cycles = s.cycles := rfl
@[simp] theorem setZN_owed (v : Byte) (s : State) : (setZN v s).owed = s.owed := rfl
@[simp] theorem setZN_nmiPending (v : Byte) (s : State) : (setZN v s).nmiPending = s.nmiPending := rfl
@[simp] theorem setZN_irqLine (v : Byte) (s : State) : (setZN v s).irqLine = s.irqLine := rfl
@[simp] theorem setZN_run (v : Byte) (s : State) : (setZN v s).run = s.run := rfl
@[simp] theorem setZN_mem (v : Byte) (s : State) : (setZN v s).mem = s.mem := rfl
@[simp] theorem setZN_cfg (v : Byte) (s : State) : (setZN v s).cfg = s.cfg := rfl

@[simp] theorem setA_a (v : Byte) (s : State) : (setA v s).a = v := rfl
@[simp] theorem setA_x (v : Byte) (s : State) : (setA v s).x = s.x := rfl
@[simp] theorem setA_y (v : Byte) (s : State) : (setA v s).y = s.y := rfl
@[simp] theorem setA_sp (v : Byte) (s : State) : (setA v s).sp = s.sp := rfl
@[simp] theorem setA_p (v : Byte) (s : State) : (setA v s).p = setBit 7 (v.getLsbD 7) (setBit 1 (v == 0#8) s.p) := rfl
@[simp] theorem setA_pc (v : Byte) (s : State) : (setA v s).pc = s.pc := rfl
@[simp] theorem setA_cycles (v : Byte) (s : State) : (setA v s).cycles = s.cycles := rfl
@[simp] theorem setA_owed (v : Byte) (s : State) : (setA v s).owed = s.owed := rfl
@[simp] theorem setA_nmiPending (v : Byte) (s : State) : (setA v s).nmiPending = s.nmiPending := rfl
@[simp] theorem setA_irqLine (v : Byte) (s : State) : (setA v s).irqLine = s.irqLine := rfl
@[simp] theorem setA_run (v : Byte) (s : State) : (setA v s).run = s.run := rfl
@[simp] theorem setA_mem (v : Byte) (s : State) : (setA v s).mem = s.mem := rfl
@[simp] theorem setA_cfg (v : Byte) (s : State) : (setA v s).cfg = s.cfg := rfl

@[simp] theorem setX_a (v : Byte) (s : State) : (setX v s).a = s.a := rfl
@[simp] theorem setX_x (v : Byte) (s : State) : (setX v s).x = v := rfl
@[simp] theorem setX_y (v : Byte) (s : State) : (setX v s).y = s.y := rfl
@[simp] theorem setX_sp (v : Byte) (s : State) : (setX v s).sp = s.sp := rfl
@[simp] theorem setX_p (v : Byte) (s : State) : (setX v s).p = setBit 7 (v.getLsbD 7) (setBit 1 (v == 0#8) s.p) := rfl
@[simp] theorem setX_pc (v : Byte) (s : State) : (setX v s).pc = s.pc := rfl
@[simp] theorem setX_cycles (v : Byte) (s : State) : (setX v s).cycles = s.cycles := rfl
@[simp] theorem setX_owed (v : Byte) (s : State) : (setX v s).owed = s.owed := rfl
@[simp] theorem setX_nmiPending (v : Byte) (s : State) : (setX v s).nmiPending = s.nmiPending := rfl
@[simp] theorem setX_irqLine (v : Byte) (s : State) : (setX v s).irqLine = s.irqLine := rfl
@[simp] theorem setX_run (v : Byte) (s : State) : (setX v s).run = s.run := rfl
@[simp] theorem setX_mem (v : Byte) (s : State) : (setX v s).mem = s.mem := rfl
@[simp] theorem setX_cfg (v : Byte) (s : State) : (setX v s).cfg = s.cfg := rfl

@[simp] theorem setY_a (v : Byte) (s : State) : (setY v s).a = s.a := rfl
@[simp] theorem setY_x (v : Byte) (s : State) : (setY v s).x = s.x := rfl
@[simp] theorem setY_y (v : Byte) (s : State) : (setY v s).y = v := rfl
@[simp] theorem setY_sp (v : Byte) (s : State) : (setY v s).sp = s.sp := rfl
@[simp] theorem setY_p (v : Byte) (s : State) : (setY v s).p = setBit 7 (v.getLsbD 7) (setBit 1 (v == 0#8) s.p) := rfl
@[simp] theorem setY_pc (v : Byte) (s : State) : (setY v s).pc = s.pc := rfl
@[simp] theorem setY_cycles (v : Byte) (s : State) : (setY v s).cycles = s.cycles := rfl
@[simp] theorem setY_owed (v : Byte) (s : State) : (setY v s).owed = s.owed := rfl
@[simp] theorem setY_nmiPending (v : Byte) (s : State) : (setY v s).nmiPending = s.nmiPending := rfl
@[simp] theorem setY_irqLine (v : Byte) (s : State) : (setY v s).irqLine = s.irqLine := rfl
@[simp] theorem setY_run (v : Byte) (s : State) : (setY v s).run = s.run := rfl
@[simp] theorem setY_mem (v : Byte) (s : State) : (setY v s).mem = s.mem := rfl
@[simp] theorem setY_cfg (v : Byte) (s : State) : (setY v s).cfg = s.cfg := rfl

@[simp] theorem memWrite_a (a : Word) (v : Byte) (s : State) : (memWrite a v s).a = s.a := by unfold memWrite; split <;> rfl
@[simp] theorem memWrite_x (a : Word) (v : Byte) (s : State) : (memWrite a v s).x = s.x := by unfold memWrite; split <;> rfl
@[simp] theorem memWrite_y (a : Word) (v : Byte) (s : State) : (memWrite a v s).y = s.y := by unfold memWrite; split <;> rfl
@[simp] theorem memWrite_sp (a : Word) (v : Byte) (s : State) : (memWrite a v s).sp = s.sp := by unfold memWrite; split <;> rfl
@[simp] theorem memWrite_p (a : Word) (v : Byte) (s : State) : (memWrite a v s).p = s.p := by unfold memWrite; split <;> rfl
@[simp] theorem memWrite_pc (a : Word) (v : Byte) (s : State) : (memWrite a v s).pc = s.pc := by unfold memWrite; split <;> rfl
@[simp] theorem memWrite_cycles (a : Word) (v : Byte) (s : State) : (memWrite a v s).cycles = s.cycles := by unfold memWrite; split <;> rfl
@[simp] theorem memWrite_owed (a : Word) (v : Byte) (s : State) : (memWrite a v s).owed = s.owed := by unfold memWrite; split <;> rfl
@[simp] theorem memWrite_nmiPending (a : Word) (v : Byte) (s : State) : (memWrite a v s).nmiPending = s.nmiPending := by unfold memWrite; split <;> rfl
@[simp] theorem memWrite_irqLine (a : Word) (v : Byte) (s : State) : (memWrite a v s).irqLine = s.irqLine := by unfold memWrite; split <;> rfl
@[simp] theorem memWrite_run (a : Word) (v : Byte) (s : State) : (memWrite a v s).run = s.run := by unfold memWrite; split <;> rfl
@[simp] theorem memWrite_cfg (a : Word) (v : Byte) (s : State) : (memWrite a v s).cfg = s.cfg := by unfold memWrite; split <;> rfl

@[simp] theorem push8_a (v : Byte) (s : State) : (push8 v s).a = s.a := by simp [push8]
@[simp] theorem push8_x (v : Byte) (s : State) : (push8 v s).x = s.x := by simp [push8]
@[simp] theorem push8_y (v : Byte) (s : State) : (push8 v s).y = s.y := by simp [push8]
@[simp] theorem push8_sp (v : Byte) (s : State) : (push8 v s).sp = s.sp - 1 := rfl
@[simp] theorem push8_p (v : Byte) (s : State) : (push8 v s).p = s.p := by simp [push8]
@[simp] theorem push8_pc (v : Byte) (s : State) : (push8 v s).pc = s.pc := by simp [push8]
@[simp] theorem push8_cycles (v : Byte) (s : State) : (push8 v s).cycles = s.cycles := by simp [push8]
@[simp] theorem push8_owed (v : Byte) (s : State) : (push8 v s).owed = s.owed := by simp [push8]
@[simp] theorem push8_nmiPending (v : Byte) (s : State) : (push8 v s).nmiPending = s.nmiPending := by simp [push8]
@[simp] theorem push8_irqLine (v : Byte) (s : State) : (push8 v s).irqLine = s.irqLine := by simp [push8]
@[simp] theorem push8_run (v : Byte) (s : State) : (push8 v s).run = s.run := by simp [push8]
@[simp] theorem push8_mem (v : Byte) (s : State) : (push8 v s).mem = (memWrite (stackAddr s.sp) v s).mem := rfl
@[simp] theorem push8_cfg (v : Byte) (s : State) : (push8 v s).cfg = s.cfg := by simp [push8]

@[simp] theorem push16_sp (w : Word) (s : State) : (push16 w s).sp = s.sp - 1 - 1 := by simp [push16]
@[simp] theorem push16_a (w : Word) (s : State) : (push16 w s).a = s.a := by simp [push16]
@[simp] theorem push16_x (w : Word) (s : State) : (push16 w s).x = s.x := by simp [push16]
@[simp] theorem push16_y (w : Word) (s : State) : (push16 w s).y = s.y := by simp [push16]
@[simp] theorem push16_p (w : Word) (s : State) : (push16 w s).p = s.p := by simp [push16]
@[simp] theorem push16_pc (w : Word) (s : State) : (push16 w s).pc = s.pc := by simp [push16]
@[simp] theorem push16_cycles (w : Word) (s : State) : (push16 w s).cycles = s.cycles := by simp [push16]
@[simp] theorem push16_owed (w : Word) (s : State) : (push16 w s).owed = s.owed := by simp [push16]
@[simp] theorem push16_nmiPending (w : Word) (s : State) : (push16 w s).nmiPending = s.nmiPending := by simp [push16]
@[simp] theorem push16_irqLine (w : Word) (s : State) : (push16 w s).irqLine = s.irqLine := by simp [push16]
@[simp] theorem push16_run (w : Word) (s : State) : (push16 w s).run = s.run := by simp [push16]
@[simp] theorem push16_cfg (w : Word) (s : State) : (push16 w s).cfg = s.cfg := by simp [push16]

@[simp] theorem afterPull_a (s : State) : (afterPull s).a = s.a := rfl
@[simp] theorem afterPull_x (s : State) : (afterPull s).x = s.x := rfl
@[simp] theorem afterPull_y (s : State) : (afterPull s).y = s.y := rfl
@[simp] theorem afterPull_sp (s : State) : (afterPull s).sp = s.sp + 1 := rfl
@[simp] theorem afterPull_p (s : State) : (afterPull s).p = s.p := rfl
@[simp] theorem afterPull_pc (s : State) : (afterPull s).pc = s.pc := rfl
@[simp] theorem afterPull_cycles (s : State) : (afterPull s).cycles = s.cycles := rfl
@[simp] theorem afterPull_owed (s : State) : (afterPull s).owed = s.owed := rfl
@[simp] theorem afterPull_nmiPending (s : State) : (afterPull s).nmiPending = s.nmiPending := rfl
@[simp] theorem afterPull_irqLine (s : State) : (afterPull s).irqLine = s.irqLine := rfl
@[simp] theorem afterPull_run (s : State) : (afterPull s).run = s.run := rfl
@[simp] theorem afterPull_mem (s : State) : (afterPull s).mem = s.mem := rfl
@[simp] theorem afterPull_cfg (s : State) : (afterPull s).cfg = s.cfg := rfl

@[simp] theorem afterPull16_a (s : State) : (afterPull16 s).a = s.a := rfl
@[simp] theorem afterPull16_x (s : State) : (afterPull16 s).x = s.x := rfl
@[simp] theorem afterPull16_y (s : State) : (afterPull16 s).y = s.y := rfl
@[simp] theorem afterPull16_sp (s : State) : (afterPull16 s).sp = s.sp + 1 + 1 := rfl
@[simp] theorem afterPull16_p (s : State) : (afterPull16 s).p = s.p := rfl
@[simp] theorem afterPull16_pc (s : State) : (afterPull16 s).pc = s.pc := rfl
@[simp] theorem afterPull16_cycles (s : State) : (afterPull16 s).cycles = s.cycles := rfl
@[simp] theorem afterPull16_owed (s : State) : (afterPull16 s).owed = s.owed := rfl
@[simp] theorem afterPull16_nmiPending (s : State) : (afterPull16 s).nmiPending = s.nmiPending := rfl
@[simp] theorem afterPull16_irqLine (s : State) : (afterPull16 s).irqLine = s.irqLine := rfl
@[simp] theorem afterPull16_run (s : State) : (afterPull16 s).run = s.run := rfl
@[simp] theorem afterPull16_mem (s : State) : (afterPull16 s).mem = s.mem := rfl
@[simp] theorem afterPull16_cfg (s : State) : (afterPull16 s).cfg = s.cfg := rfl

@[simp] theorem charge_a (k : Kind) (o : Operand) (extra : Nat) (s : State) : (charge k o extra s).a = s.a := rfl
@[simp] theorem charge_x (k : Kind) (o : Operand) (extra : Nat) (s : State) : (charge k o extra s).x = s.x := rfl
@[simp] theorem charge_y (k : Kind) (o : Operand) (extra : Nat) (s : State) : (charge k o extra s).y = s.y := rfl
@[simp] theorem charge_sp (k : Kind) (o : Operand) (extra : Nat) (s : State) : (charge k o extra s).sp = s.sp := rfl
@[simp] theorem charge_p (k : Kind) (o : Operand) (extra : Nat) (s : State) : (charge k o extra s).p = s.p := rfl
@[simp] theorem charge_pc (k : Kind) (o : Operand) (extra : Nat) (s : State) : (charge k o extra s).pc = s.pc := rfl
@[simp] theorem charge_cycles (k : Kind) (o : Operand) (extra : Nat) (s : State) : (charge k o extra s).cycles = s.cycles := rfl
@[simp] theorem charge_owed (k : Kind) (o : Operand) (extra : Nat) (s : State) : (charge k o extra s).owed = baseCost s.cfg.cycleTable k o.mode + extra := rfl
@[simp] theorem charge_nmiPending (k : Kind) (o : Operand) (extra : Nat) (s : State) : (charge k o extra s).nmiPending = s.nmiPending := rfl
@[simp] theorem charge_irqLine (k : Kind) (o : Operand) (extra : Nat) (s : State) : (charge k o extra s).irqLine = s.irqLine := rfl
@[simp] theorem charge_run (k : Kind) (o : Operand) (extra : Nat) (s : State) : (charge k o extra s).run = s.run := rfl
@[simp] theorem charge_mem (k : Kind) (o : Operand) (extra : Nat) (s : State) : (charge k o extra s).mem = s.mem := rfl
@[simp] theorem charge_cfg (k : Kind) (o : Operand) (extra : Nat) (s : State) : (charge k o extra s).cfg = s.cfg := rfl

@[simp] theorem advance_a (o : Operand) (s : State) : (advance o s).a = s.a := rfl
@[simp] theorem advance_x (o : Operand) (s : State) : (advance o s).x = s.x := rfl
@[simp] theorem advance_y (o : Operand) (s : State) : (advance o s).y = s.y := rfl
@[simp] theorem advance_sp (o : Operand) (s : State) : (advance o s).sp = s.sp := rfl
@[simp] theorem advance_p (o : Operand) (s : State) : (advance o s).p = s.p := rfl
@[simp] theorem advance_pc (o : Operand) (s : State) : (advance o s).pc = s.pc + BitVec.ofNat 16 o.mode.length := rfl
@[simp] theorem advance_cycles (o : Operand) (s : State) : (advance o s).cycles = s.cycles := rfl
@[simp] theorem advance_owed (o : Operand) (s : State) : (advance o s).owed = s.owed := rfl
@[simp] theorem advance_nmiPending (o : Operand) (s : State) : (advance o s).nmiPending = s.nmiPending := rfl
@[simp] theorem advance_irqLine (o : Operand) (s : State) : (advance o s).irqLine = s.irqLine := rfl
@[simp] theorem advance_run (o : Operand) (s : State) : (advance o s).run = s.run := rfl
@[simp] theorem advance_mem (o : Operand) (s : State) : (advance o s).mem = s.mem := rfl
@[simp] theorem advance_cfg (o : Operand) (s : State) : (advance o s).cfg = s.cfg := rfl

@[simp] theorem retire_a (k : Kind) (o : Operand) (extra : Nat) (s : State) : (retire k o extra s).a = s.a := rfl
@[simp] theorem retire_x (k : Kind) (o : Operand) (extra : Nat) (s : State) : (retire k o extra s).x = s.x := rfl
@[simp] theorem retire_y (k : Kind) (o : Operand) (extra : Nat) (s : State) : (retire k o extra s).y = s.y := rfl
@[simp] theorem retire_sp (k : Kind) (o : Operand) (extra : Nat) (s : State) : (retire k o extra s).sp = s.sp := rfl
@[simp] theorem retire_p (k : Kind) (o : Operand) (extra : Nat) (s : State) : (retire k o extra s).p = s.p := rfl
@[simp] theorem retire_pc (k : Kind) (o : Operand) (extra : Nat) (s : State) : (retire k o extra s).pc = s.pc + BitVec.ofNat 16 o.mode.length := rfl
@[simp] theorem retire_cycles (k : Kind) (o : Operand) (extra : Nat) (s : State) : (retire k o extra s).cycles = s.cycles := rfl
@[simp] theorem retire_owed (k : Kind) (o : Operand) (extra : Nat) (s : State) : (retire k o extra s).owed = baseCost s.cfg.cycleTable k o.mode + extra := rfl
@[simp] theorem retire_nmiPending (k : Kind) (o : Operand) (extra : Nat) (s : State) : (retire k o extra s).nmiPending = s.nmiPending := rfl
@[simp] theorem retire_irqLine (k : Kind) (o : Operand) (extra : Nat) (s : State) : (retire k o extra s).irqLine = s.irqLine := rfl
@[simp] theorem retire_run (k : Kind) (o : Operand) (extra : Nat) (s : State) : (retire k o extra s).run = s.run := rfl
@[simp] theorem retire_mem (k : Kind) (o : Operand) (extra : Nat) (s : State) : (retire k o extra s).mem = s.mem := rfl
@[simp] theorem retire_cfg (k : Kind) (o : Operand) (extra : Nat) (s : State) : (retire k o extra s).cfg = s.cfg := rfl

@[simp] theorem addWithCarry_a (m : Byte) (s : State) : (addWithCarry m s).a = BitVec.ofNat 8 (carrySum s.a m s.carry) := rfl
@[simp] theorem addWithCarry_x (m : Byte) (s : State) : (addWithCarry m s).x = s.x := rfl
@[simp] theorem addWithCarry_y (m : Byte) (s : State) : (addWithCarry m s).y = s.y := rfl
@[simp] theorem addWithCarry_sp (m : Byte) (s : State) : (addWithCarry m s).sp = s.sp := rfl
@[simp] theorem addWithCarry_pc (m : Byte) (s : State) : (addWithCarry m s).pc = s.pc := rfl
@[simp] theorem addWithCarry_cycles (m : Byte) (s : State) : (addWithCarry m s).cycles = s.cycles := rfl
@[simp] theorem addWithCarry_owed (m : Byte) (s : State) : (addWithCarry m s).owed = s.owed := rfl
@[simp] theorem addWithCarry_nmiPending (m : Byte) (s : State) : (addWithCarry m s).nmiPending = s.nmiPending := rfl
@[simp] theorem addWithCarry_irqLine (m : Byte) (s : State) : (addWithCarry m s).irqLine = s.irqLine := rfl
@[simp] theorem addWithCarry_run (m : Byte) (s : State) : (addWithCarry m s).run = s.run := rfl
@[simp] theorem addWithCarry_mem (m : Byte) (s : State) : (addWithCarry m s).mem = s.mem := rfl
@[simp] theorem addWithCarry_cfg (m : Byte) (s : State) : (addWithCarry m s).cfg = s.cfg := rfl

@[simp] theorem compareFlags_a (reg m : Byte) (s : State) : (compareFlags reg m s).a = s.a := rfl
@[simp] theorem compareFlags_x (reg m : Byte) (s : State) : (compareFlags reg m s).x = s.x := rfl
@[simp] theorem compareFlags_y (reg m : Byte) (s : State) : (compareFlags reg m s).y = s.y := rfl
@[simp] theorem compareFlags_sp (reg m : Byte) (s : State) : (compareFlags reg m s).sp = s.sp := rfl
@[simp] theorem compareFlags_pc (reg m : Byte) (s : State) : (compareFlags reg m s).pc = s.pc := rfl
@[simp] theorem compareFlags_cycles (reg m : Byte) (s : State) : (compareFlags reg m s).cycles = s.cycles := rfl
@[simp] theorem compareFlags_owed (reg m : Byte) (s : State) : (compareFlags reg m s).owed = s.owed := rfl
@[simp] theorem compareFlags_nmiPending (reg m : Byte) (s : State) : (compareFlags reg m s).nmiPending = s.nmiPending := rfl
@[simp] theorem compareFlags_irqLine (reg m : Byte) (s : State) : (compareFlags reg m s).irqLine = s.irqLine := rfl
@[simp] theorem compareFlags_run (reg m : Byte) (s : State) : (compareFlags reg m s).run = s.run := rfl
@[simp] theorem compareFlags_mem (reg m : Byte) (s : State) : (compareFlags reg m s).mem = s.mem := rfl
@[simp] theorem compareFlags_cfg (reg m : Byte) (s : State) : (compareFlags reg m s).cfg = s.cfg := rfl

@[simp] theorem bitFlags_a (m : Byte) (s : State) : (bitFlags m s).a = s.a := rfl
@[simp] theorem bitFlags_x (m : Byte) (s : State) : (bitFlags m s).x = s.x := rfl
@[simp] theorem bitFlags_y (m : Byte) (s : State) : (bitFlags m s).y = s.y := rfl
@[simp] theorem bitFlags_sp (m : Byte) (s : State) : (bitFlags m s).sp = s.sp := rfl
@[simp] theorem bitFlags_pc (m : Byte) (s : State) : (bitFlags m s).pc = s.pc := rfl
@[simp] theorem bitFlags_cycles (m : Byte) (s : State) : (bitFlags m s).cycles = s.cycles := rfl
@[simp] theorem bitFlags_owed (m : Byte) (s : State) : (bitFlags m s).owed = s.owed := rfl
@[simp] theorem bitFlags_nmiPending (m : Byte) (s : State) : (bitFlags m s).nmiPending = s.nmiPending := rfl
@[simp] theorem bitFlags_irqLine (m : Byte) (s : State) : (bitFlags m s).irqLine = s.irqLine := rfl
@[simp] theorem bitFlags_run (m : Byte) (s : State) : (bitFlags m s).run = s.run := rfl
@[simp] theorem bitFlags_mem (m : Byte) (s : State) : (bitFlags m s).mem = s.mem := rfl
@[simp] theorem bitFlags_cfg (m : Byte) (s : State) : (bitFlags m s).cfg = s.cfg := rfl

@[simp] theorem pullA_a (s : State) : (pullA s).a = pullByte s := rfl
@[simp] theorem pullA_x (s : State) : (pullA s).x = s.x := rfl
@[simp] theorem pullA_y (s : State) : (pullA s).y = s.y := rfl
@[simp] theorem pullA_sp (s : State) : (pullA s).sp = s.sp + 1 := rfl
@[simp] theorem pullA_pc (s : State) : (pullA s).pc = s.pc := rfl
@[simp] theorem pullA_cycles (s : State) : (pullA s).cycles = s.cycles := rfl
@[simp] theorem pullA_owed (s : State) : (pullA s).owed = s.owed := rfl
@[simp] theorem pullA_nmiPending (s : State) : (pullA s).nmiPending = s.nmiPending := rfl
@[simp] theorem pullA_irqLine (s : State) : (pullA s).irqLine = s.irqLine := rfl
@[simp] theorem pullA_run (s : State) : (pullA s).run = s.run := rfl
@[simp] theorem pullA_mem (s : State) : (pullA s).mem = s.mem := rfl
@[simp] theorem pullA_cfg (s : State) : (pullA s).cfg = s.cfg := rfl

@[simp] theorem pullP_a (s : State) : (pullP s).a = s.a := rfl
@[simp] theorem pullP_x (s : State) : (pullP s).x = s.x := rfl
@[simp] theorem pullP_y (s : State) : (pullP s).y = s.y := rfl
@[simp] theorem pullP_sp (s : State) : (pullP s).sp = s.sp + 1 := rfl
@[simp] theorem pullP_p (s : State) : (pullP s).p = (pullByte s &&& 0xCF#8) ||| 0x20#8 ||| (s.p &&& 0x10#8) := rfl
@[simp] theorem pullP_pc (s : State) : (pullP s).pc = s.pc := rfl
@[simp] theorem pullP_cycles (s : State) : (pullP s).cycles = s.cycles := rfl
@[simp] theorem pullP_owed (s : State) : (pullP s).owed = s.owed := rfl
@[simp] theorem pullP_nmiPending (s : State) : (pullP s).nmiPending = s.nmiPending := rfl
@[simp] theorem pullP_irqLine (s : State) : (pullP s).irqLine = s.irqLine := rfl
@[simp] theorem pullP_run (s : State) : (pullP s).run = s.run := rfl
@[simp] theorem pullP_mem (s : State) : (pullP s).mem = s.mem := rfl
@[simp] theorem pullP_cfg (s : State) : (pullP s).cfg = s.cfg := rfl

@[simp] theorem countTick_a (s : State) : (countTick s).a = s.a := rfl
@[simp] theorem countTick_x (s : State) : (countTick s).x = s.x := rfl
@[simp] theorem countTick_y (s : State) : (countTick s).y = s.y := rfl
@[simp] theorem countTick_sp (s : State) : (countTick s).sp = s.sp := rfl
@[simp] theorem countTick_p (s : State) : (countTick s).p = s.p := rfl
@[simp] theorem countTick_pc (s : State) : (countTick s).pc = s.pc := rfl
@[simp] theorem countTick_cycles (s : State) : (countTick s).cycles = s.cycles + 1 := rfl
@[simp] theorem countTick_owed (s : State) : (countTick s).owed = s.owed - 1 := rfl
@[simp] theorem countTick_nmiPending (s : State) : (countTick s).nmiPending = s.nmiPending := rfl
@[simp] theorem countTick_irqLine (s : State) : (countTick s).irqLine = s.irqLine := rfl
@[simp] theorem countTick_run (s : State) : (countTick s).run = s.run := rfl
@[simp] theorem countTick_mem (s : State) : (countTick s).mem = s.mem := rfl
@[simp] theorem countTick_cfg (s : State) : (countTick s).cfg = s.cfg := rfl

@[simp] theorem haltFatal_a (op : Byte) (s : State) : (haltFatal op s).a = s.a := rfl
@[simp] theorem haltFatal_x (op : Byte) (s : State) : (haltFatal op s).x = s.x := rfl
@[simp] theorem haltFatal_y (op : Byte) (s : State) : (haltFatal op s).y = s.y := rfl
@[simp] theorem haltFatal_sp (op : Byte) (s : State) : (haltFatal op s).sp = s.sp := rfl
@[simp] theorem haltFatal_p (op : Byte) (s : State) : (haltFatal op s).p = s.p := rfl
@[simp] theorem haltFatal_pc (op : Byte) (s : State) : (haltFatal op s).pc = s.pc := rfl
@[simp] theorem haltFatal_cycles (op : Byte) (s : State) : (haltFatal op s).cycles = s.cycles := rfl
@[simp] theorem haltFatal_owed (op : Byte) (s : State) : (haltFatal op s).owed = s.owed := rfl
@[simp] theorem haltFatal_nmiPending (op : Byte) (s : State) : (haltFatal op s).nmiPending = s.nmiPending := rfl
@[simp] theorem haltFatal_irqLine (op : Byte) (s : State) : (haltFatal op s).irqLine = s.irqLine := rfl
@[simp] theorem haltFatal_run (op : Byte) (s : State) : (haltFatal op s).run = .halted (.fatalDecode s.pc op) := rfl
@[simp] theorem haltFatal_mem (op : Byte) (s : State) : (haltFatal op s).mem = s.mem := rfl
@[simp] theorem haltFatal_cfg (op : Byte) (s : State) : (haltFatal op s).cfg = s.cfg := rfl

@[simp] theorem enterException_sp (ret : Word) (pushed newP : Byte) (vec : Word) (s : State) : (enterException ret pushed newP vec s).sp = s.sp - 1 - 1 - 1 := by simp [enterException]
@[simp] theorem enterException_p (ret : Word) (pushed newP : Byte) (vec : Word) (s : State) : (enterException ret pushed newP vec s).p = newP := rfl
@[simp] theorem enterException_a (ret : Word) (pushed newP : Byte) (vec : Word) (s : State) : (enterException ret pushed newP vec s).a = s.a := by simp [enterException]
@[simp] theorem enterException_x (ret : Word) (pushed newP : Byte) (vec : Word) (s : State) : (enterException ret pushed newP vec s).x = s.x := by simp [enterException]
@[simp] theorem enterException_y (ret : Word) (pushed newP : Byte) (vec : Word) (s : State) : (enterException ret pushed newP vec s).y = s.y := by simp [enterException]
@[simp] theorem enterException_cycles (ret : Word) (pushed newP : Byte) (vec : Word) (s : State) : (enterException ret pushed newP vec s).cycles = s.cycles := by simp [enterException]
@[simp] theorem enterException_owed (ret : Word) (pushed newP : Byte) (vec : Word) (s : State) : (enterException ret pushed newP vec s).owed = s.owed := by simp [enterException]
@[simp] theorem enterException_nmiPending (ret : Word) (pushed newP : Byte) (vec : Word) (s : State) : (enterException ret pushed newP vec s).nmiPending = s.nmiPending := by simp [enterException]
@[simp] theorem enterException_irqLine (ret : Word) (pushed newP : Byte) (vec : Word) (s : State) : (enterException ret pushed newP vec s).irqLine = s.irqLine := by simp [enterException]
@[simp] theorem enterException_run (ret : Word) (pushed newP : Byte) (vec : Word) (s : State) : (enterException ret pushed newP vec s).run = s.run := by simp [enterException]
@[simp] theorem enterException_cfg (ret : Word) (pushed newP : Byte) (vec : Word) (s : State) : (enterException ret pushed newP vec s).cfg = s.cfg := by simp [enterException]

@[simp] theorem leaveException_sp (s : State) : (leaveException s).sp = s.sp + 1 + 1 + 1 := rfl
@[simp] theorem leaveException_a (s : State) : (leaveException s).a = s.a := rfl
@[simp] theorem leaveException_x (s : State) : (leaveException s).x = s.x := rfl
@[simp] theorem leaveException_y (s : State) : (leaveException s).y = s.y := rfl
@[simp] theorem leaveException_p (s : State) : (leaveException s).p = pullByte s ||| 0x20#8 := rfl
@[simp] theorem leaveException_pc (s : State) : (leaveException s).pc = pullWord (afterPull s) := rfl
@[simp] theorem leaveException_cycles (s : State) : (leaveException s).cycles = s.cycles := rfl
@[simp] theorem leaveException_owed (s : State) : (leaveException s).owed = s.owed := rfl
@[simp] theorem leaveException_nmiPending (s : State) : (leaveException s).nmiPending = s.nmiPending := rfl
@[simp] theorem leaveException_irqLine (s : State) : (leaveException s).irqLine = s.irqLine := rfl
@[simp] theorem leaveException_run (s : State) : (leaveException s).run = s.run := rfl
@[simp] theorem leaveException_mem (s : State) : (leaveException s).mem = s.mem := rfl
@[simp] theorem leaveException_cfg (s : State) : (leaveException s).cfg = s.cfg := rfl

@[simp] theorem interruptEntry_sp (v : Word) (s : State) : (interruptEntry v s).sp = s.sp - 1 - 1 - 1 := by simp [interruptEntry]
@[simp] theorem interruptEntry_a (v : Word) (s : State) : (interruptEntry v s).a = s.a := by simp [interruptEntry]
@[simp] theorem interruptEntry_x (v : Word) (s : State) : (interruptEntry v s).x = s.x := by simp [interruptEntry]
@[simp] theorem interruptEntry_y (v : Word) (s : State) : (interruptEntry v s).y = s.y := by simp [interruptEntry]
@[simp] theorem interruptEntry_p (v : Word) (s : State) : (interruptEntry v s).p = if s.cfg.intSetsI then setBit 2 true s.p else s.p := rfl
@[simp] theorem interruptEntry_cycles (v : Word) (s : State) : (interruptEntry v s).cycles = s.cycles := by simp [interruptEntry]
@[simp] theorem interruptEntry_owed (v : Word) (s : State) : (interruptEntry v s).owed = s.cfg.intEntryCycles := rfl
@[simp] theorem interruptEntry_nmiPending (v : Word) (s : State) : (interruptEntry v s).nmiPending = s.nmiPending := by simp [interruptEntry]
@[simp] theorem interruptEntry_irqLine (v : Word) (s : State) : (interruptEntry v s).irqLine = s.irqLine := by simp [interruptEntry]
@[simp] theorem interruptEntry_run (v : Word) (s : State) : (interruptEntry v s).run = s.run := by simp [interruptEntry]
@[simp] theorem interruptEntry_cfg (v : Word) (s : State) : (interruptEntry v s).cfg = s.cfg := by simp [interruptEntry]

end Sys2Proof.Machine
end

