-- ==== Sys2Proof/Laws/Flags.lean ====
section
/-! SUPPORT. What one flag write does to each flag, and the byte and word laws the flags rest on. -/

namespace Sys2Proof.Machine

/-- Setting bit i changes bit i alone. -/
@[simp] theorem getLsbD_setBit (i j : Nat) (b : Bool) (v : Byte) (hi : i < 8) (hj : j < 8) :
    (setBit i b v).getLsbD j = if j = i then b else v.getLsbD j := by
  unfold setBit
  cases b <;> simp [hj] <;> interval_cases i <;> interval_cases j <;> simp

/-- The same in the form `simp` gives a bit at a literal place. -/
@[simp] theorem getElem_setBit (i j : Nat) (b : Bool) (v : Byte) (hi : i < 8) (hj : j < 8) :
    (setBit i b v)[j] = if j = i then b else v[j] := by
  simpa [BitVec.getLsbD_eq_getElem hj] using getLsbD_setBit i j b v hi hj

/-- Bit i of {h, l}. -/
theorem getLsbD_cat (h l : Byte) (i : Nat) : (cat h l).getLsbD i = if i < 8 then l.getLsbD i else h.getLsbD (i - 8) := by
  simp only [cat, BitVec.getLsbD_append]

/-- {h, l} is h * 256 + l (R10). -/
theorem toNat_cat (h l : Byte) : (cat h l).toNat = h.toNat * 256 + l.toNat := by
  have hl := l.isLt
  have e : (cat h l).toNat = (h.toNat <<< 8) ||| l.toNat := BitVec.toNat_append h l
  rw [e, Nat.shiftLeft_eq, Nat.mul_comm, ← Nat.two_pow_add_eq_or_of_lt hl, Nat.mul_comm]

@[simp] theorem hi_cat (h l : Byte) : hi (cat h l) = h := by
  apply BitVec.eq_of_getLsbD_eq
  intro i hi'
  simp [hi, getLsbD_cat, hi']

@[simp] theorem lo_cat (h l : Byte) : lo (cat h l) = l := by
  apply BitVec.eq_of_getLsbD_eq
  intro i hi'
  simp [lo, getLsbD_cat, hi']

@[simp] theorem cat_hi_lo (w : Word) : cat (hi w) (lo w) = w := by
  apply BitVec.eq_of_getLsbD_eq
  intro i hi'
  simp only [hi, lo, getLsbD_cat, BitVec.getLsbD_extractLsb']
  split
  · next h => simp [h]
  · have : i - 8 < 8 := by omega
    simp [this, Nat.add_sub_cancel' (by omega : 8 ≤ i)]

end Sys2Proof.Machine
end

