-- ==== Sys2Proof/Laws/Decode.lean ====
section
/-! SUPPORT. What the opcode ROM and the decoder give for each opcode byte: opcode, kind, operand bytes, and which of the
bytes after the opcode they depend on (30_encoding.md R80 to R88). -/

namespace Sys2Proof

open Sys2Proof.Machine (hi lo cat cat_hi_lo hi_cat lo_cat)

/-- What holds at the 256 numbers holds of every byte. -/
theorem forall_byte {P : Byte → Prop} (h : ∀ n : Nat, n < 256 → P (BitVec.ofNat 8 n)) (op : Byte) : P op := by
  have := h op.toNat op.isLt
  simpa using this

theorem romLookup_opcode (op b1 b2 : Byte) : (romLookup op b1 b2).opcode = op := by
  refine forall_byte (P := fun op => (romLookup op b1 b2).opcode = op) (fun n hn => ?_) op
  interval_cases n <;> rfl

theorem romLookup_kind (op b1 b2 : Byte) : (romLookup op b1 b2).kind = (romLookup op 0 0).kind := by
  refine forall_byte (P := fun op => (romLookup op b1 b2).kind = (romLookup op 0 0).kind) (fun n hn => ?_) op
  interval_cases n <;> rfl

theorem romLookup_mode (op b1 b2 : Byte) : (romLookup op b1 b2).mode = (romLookup op 0 0).mode := by
  refine forall_byte (P := fun op => (romLookup op b1 b2).mode = (romLookup op 0 0).mode) (fun n hn => ?_) op
  interval_cases n <;> rfl

theorem romLookup_length (op b1 b2 : Byte) : (romLookup op b1 b2).length = (romLookup op 0 0).length := by
  refine forall_byte (P := fun op => (romLookup op b1 b2).length = (romLookup op 0 0).length) (fun n hn => ?_) op
  interval_cases n <;> rfl

theorem romLookup_bytes (op b1 b2 : Byte) :
    (romLookup op b1 b2).operand.bytes = [b1, b2].take ((romLookup op 0 0).length - 1) := by
  refine forall_byte (P := fun op => (romLookup op b1 b2).operand.bytes = [b1, b2].take ((romLookup op 0 0).length - 1))
    (fun n hn => ?_) op
  interval_cases n <;> first | rfl | (show [lo (cat b2 b1), hi (cat b2 b1)] = [b1, b2]; simp)

/-- The cell of an opcode depends on its operand bytes alone. -/
theorem romLookup_congr (op b1 b2 c1 c2 : Byte)
    (h : [b1, b2].take ((romLookup op 0 0).length - 1) = [c1, c2].take ((romLookup op 0 0).length - 1)) :
    romLookup op b1 b2 = romLookup op c1 c2 := by
  revert h
  refine forall_byte (P := fun op => [b1, b2].take ((romLookup op 0 0).length - 1) =
    [c1, c2].take ((romLookup op 0 0).length - 1) → romLookup op b1 b2 = romLookup op c1 c2) (fun n hn => ?_) op
  interval_cases n <;> intro h <;> first
    | rfl
    | (have h1 : [b1] = [c1] := h
       simp at h1
       subst h1
       rfl)
    | (have h1 : [b1, b2] = [c1, c2] := h
       simp at h1
       obtain ⟨rfl, rfl⟩ := h1
       rfl)

/-- Every instruction but the sentinel stands in the ROM at its opcode. -/
theorem romLookup_of (i : Instr) (h : i.kind ≠ .noInstruction) :
    ∃ b1 b2, romLookup i.opcode b1 b2 = i ∧ i.operand.bytes = [b1, b2].take (i.length - 1) := by
  cases i <;> first
    | exact ⟨0, 0, by simp only [Instr.opcode]; rfl, rfl⟩
    | (rename_i x
       first
       | exact ⟨x, 0, by simp only [Instr.opcode]; rfl, rfl⟩
       | exact ⟨lo x, hi x, by simp only [Instr.opcode]; exact congrArg _ (cat_hi_lo x), rfl⟩)
    | exact absurd rfl h

theorem decodeOp_opcode (a : Bool) (op b1 b2 : Byte) : (decodeOp a op b1 b2).opcode = op := by
  unfold decodeOp
  dsimp only
  split
  · rfl
  · exact romLookup_opcode _ _ _

theorem decodeOp_mode (a : Bool) (op b1 b2 : Byte) : (decodeOp a op b1 b2).mode = (decodeOp a op 0 0).mode := by
  unfold decodeOp
  dsimp only
  rw [romLookup_kind]
  split
  · rfl
  · exact romLookup_mode _ _ _

theorem decodeOp_length (a : Bool) (op b1 b2 : Byte) : (decodeOp a op b1 b2).length = (decodeOp a op 0 0).length := by
  unfold decodeOp
  dsimp only
  rw [romLookup_kind]
  split
  · rfl
  · exact romLookup_length _ _ _

theorem decodeOp_bytes (a : Bool) (op b1 b2 : Byte) :
    (decodeOp a op b1 b2).operand.bytes = [b1, b2].take ((decodeOp a op 0 0).length - 1) := by
  unfold decodeOp
  dsimp only
  rw [romLookup_kind]
  split
  · rfl
  · exact romLookup_bytes _ _ _

/-- Decoding an opcode depends on its operand bytes alone. -/
theorem decodeOp_congr (a : Bool) (op b1 b2 c1 c2 : Byte)
    (h : [b1, b2].take ((decodeOp a op 0 0).length - 1) = [c1, c2].take ((decodeOp a op 0 0).length - 1)) :
    decodeOp a op b1 b2 = decodeOp a op c1 c2 := by
  unfold decodeOp at h ⊢
  dsimp only at h ⊢
  rw [romLookup_kind op b1, romLookup_kind op c1]
  split
  · rfl
  · next hn =>
    rw [if_neg hn] at h
    exact romLookup_congr _ _ _ _ _ h

/-- An instruction is 1, 2 or 3 bytes long. -/
theorem length_cases (i : Instr) : i.length = 1 ∨ i.length = 2 ∨ i.length = 3 := by
  cases i <;> first | exact .inl rfl | exact .inr (.inl rfl) | exact .inr (.inr rfl)

/-- The three bytes at PC always decode. -/
theorem decode_three (a : Bool) (op b1 b2 : Byte) : ∃ rest, decode a [op, b1, b2] = .ok (decodeOp a op b1 b2, rest) := by
  refine ⟨([b1, b2] : List Byte).drop ((decodeOp a op 0 0).length - 1), ?_⟩
  show (if 2 < _ then _ else _) = _
  rw [if_neg]
  · rfl
  · rcases length_cases (decodeOp a op 0 0) with h | h | h <;> omega

end Sys2Proof
end

