-- ==== Sys2Proof/Laws/Load.lean ====
section
/-! SUPPORT. What loading an image does to memory: the bytes read back, the canonical form kept (20_memory.md R54, R70). -/

namespace Sys2Proof.Machine

/-- Loading keeps RAM. -/
theorem get_ramOnly (m : Memory) (k : Nat) (h : k < 0x0800) : Memory.get (ramOnly m) k = m.get k := by
  induction m with
  | nil => rfl
  | cons c m ih =>
    obtain ⟨k', v⟩ := c
    unfold ramOnly
    by_cases hk : k' < 0x0800
    · rw [if_pos hk]; unfold Memory.get; rw [ih]
    · rw [if_neg hk, ih]
      conv => rhs; unfold Memory.get
      rw [if_neg (by omega)]

/-- What holds of every cell holds of those in RAM. -/
theorem all_ramOnly (f : Host.Cell → Bool) (m : Memory) (h : m.all f = true) : (ramOnly m).all f = true := by
  induction m with
  | nil => rfl
  | cons c m ih =>
    obtain ⟨k, v⟩ := c
    simp only [List.all_cons, Bool.and_eq_true] at h
    unfold ramOnly
    split
    · simp only [List.all_cons, Bool.and_eq_true]; exact ⟨h.1, ih h.2⟩
    · exact ih h.2

theorem ramOnly_wf (m : Memory) (h : m.wf = true) : Memory.wf (ramOnly m) = true := by
  induction m with
  | nil => rfl
  | cons c m ih =>
    obtain ⟨k, v⟩ := c
    simp only [Memory.wf, Bool.and_eq_true] at h
    unfold ramOnly
    split
    · simp only [Memory.wf, Bool.and_eq_true]; exact ⟨⟨h.1.1, all_ramOnly _ _ h.1.2⟩, ih h.2⟩
    · exact ih h.2

/-- RAM is in the map of either number of banks. -/
theorem ramOnly_inMap (b : Banks) (m : Memory) : Memory.inMap b (ramOnly m) = true := by
  induction m with
  | nil => rfl
  | cons c m ih =>
    obtain ⟨k, v⟩ := c
    unfold ramOnly
    split
    · next h =>
      unfold Memory.inMap at ih ⊢
      rw [List.all_cons, ih, Bool.and_true]
      unfold isLocation
      rw [Bool.or_eq_true]
      exact .inl (decide_eq_true h)
    · exact ih

/-- An image stored at the locations from k up is read back there, and nowhere else. -/
theorem get_storeImage (prg : List Byte) (k : Nat) (m : Memory) (j : Nat) :
    (storeImage prg k m).get j = if k ≤ j ∧ j < k + prg.length then prg.getD (j - k) 0x00#8 else m.get j := by
  induction prg generalizing k m with
  | nil => rw [if_neg (by simp)]; rfl
  | cons v prg ih =>
    unfold storeImage
    rw [ih, List.length_cons]
    by_cases h : k + 1 ≤ j ∧ j < k + 1 + prg.length
    · obtain ⟨d, hd⟩ : ∃ d, j - k = d + 1 := ⟨j - k - 1, by omega⟩
      rw [if_pos h, if_pos (by omega), hd, show j - (k + 1) = d by omega]; rfl
    · rw [if_neg h, Memory.get_set]
      by_cases hj : j = k
      · subst hj; rw [if_pos (by omega)]; simp
      · rw [if_neg (by omega), if_neg (by omega)]

/-- An image that fits keeps the canonical form and the map. -/
theorem storeImage_keeps (b : Banks) (prg : List Byte) (k : Nat) (m : Memory) (hw : m.wf = true)
    (hm : m.inMap b = true) (hk : 0x8000 ≤ k) (hl : k + prg.length ≤ 0x8000 + prgSize b) :
    (storeImage prg k m).wf = true ∧ (storeImage prg k m).inMap b = true := by
  induction prg generalizing k m with
  | nil => exact ⟨hw, hm⟩
  | cons v prg ih =>
    rw [List.length_cons] at hl
    refine ih (k + 1) (m.set k v) (Memory.set_wf _ _ _ hw) (Memory.set_inMap _ _ _ _ hm ?_) (by omega) (by omega)
    unfold isLocation
    rw [Bool.or_eq_true, Bool.and_eq_true]
    exact .inr ⟨decide_eq_true hk, decide_eq_true (by omega)⟩

/-- What loading an image of an admitted size answers before reset. -/
theorem load_of_reset {prg : List Byte} {s : State} {b : Banks} (hr : s.run = .reset) (hb : banksOf prg.length = some b) :
    load prg s =
      .next { s with mem := storeImage prg 0x8000 (ramOnly s.mem), cfg := { s.cfg with prgBanks := b } } := by
  unfold load
  rw [if_pos hr, hb]

/-- What power-on answers before reset under admitted costs. -/
theorem powerOn_of_reset {s : State} (hr : s.run = .reset) (hc : costsAdmitted s.cfg = true) :
    powerOn s = .next (resetSequence s) := by
  unfold powerOn
  rw [if_pos hr, if_pos hc]

end Sys2Proof.Machine
end

