-- ==== Sys2Proof/Laws/PerInstr.lean ====
section
/-! SUPPORT. The per-instruction family EncodingLength: an instruction encodes to as many bytes as its mode gives it
(30_encoding.md R80, R81). -/

namespace Sys2Proof.Laws.EncodingLength

/-- The encoding of i has i's length. -/
def Statement (i : Instr) : Prop := (encode i).length = i.length

theorem adcImm (imm : Byte) : Statement (.adcImm imm) := rfl
theorem adcZp (zp : Byte) : Statement (.adcZp zp) := rfl
theorem adcZpx (zp : Byte) : Statement (.adcZpx zp) := rfl
theorem adcAbs (addr : Word) : Statement (.adcAbs addr) := rfl
theorem adcAbx (addr : Word) : Statement (.adcAbx addr) := rfl
theorem adcAby (addr : Word) : Statement (.adcAby addr) := rfl
theorem adcIzx (zp : Byte) : Statement (.adcIzx zp) := rfl
theorem adcIzy (zp : Byte) : Statement (.adcIzy zp) := rfl
theorem sbcImm (imm : Byte) : Statement (.sbcImm imm) := rfl
theorem sbcZp (zp : Byte) : Statement (.sbcZp zp) := rfl
theorem sbcZpx (zp : Byte) : Statement (.sbcZpx zp) := rfl
theorem sbcAbs (addr : Word) : Statement (.sbcAbs addr) := rfl
theorem sbcAbx (addr : Word) : Statement (.sbcAbx addr) := rfl
theorem sbcAby (addr : Word) : Statement (.sbcAby addr) := rfl
theorem sbcIzx (zp : Byte) : Statement (.sbcIzx zp) := rfl
theorem sbcIzy (zp : Byte) : Statement (.sbcIzy zp) := rfl
theorem andImm (imm : Byte) : Statement (.andImm imm) := rfl
theorem andZp (zp : Byte) : Statement (.andZp zp) := rfl
theorem andZpx (zp : Byte) : Statement (.andZpx zp) := rfl
theorem andAbs (addr : Word) : Statement (.andAbs addr) := rfl
theorem andAbx (addr : Word) : Statement (.andAbx addr) := rfl
theorem andAby (addr : Word) : Statement (.andAby addr) := rfl
theorem andIzx (zp : Byte) : Statement (.andIzx zp) := rfl
theorem andIzy (zp : Byte) : Statement (.andIzy zp) := rfl
theorem oraImm (imm : Byte) : Statement (.oraImm imm) := rfl
theorem oraZp (zp : Byte) : Statement (.oraZp zp) := rfl
theorem oraZpx (zp : Byte) : Statement (.oraZpx zp) := rfl
theorem oraAbs (addr : Word) : Statement (.oraAbs addr) := rfl
theorem oraAbx (addr : Word) : Statement (.oraAbx addr) := rfl
theorem oraAby (addr : Word) : Statement (.oraAby addr) := rfl
theorem oraIzx (zp : Byte) : Statement (.oraIzx zp) := rfl
theorem oraIzy (zp : Byte) : Statement (.oraIzy zp) := rfl
theorem eorImm (imm : Byte) : Statement (.eorImm imm) := rfl
theorem eorZp (zp : Byte) : Statement (.eorZp zp) := rfl
theorem eorZpx (zp : Byte) : Statement (.eorZpx zp) := rfl
theorem eorAbs (addr : Word) : Statement (.eorAbs addr) := rfl
theorem eorAbx (addr : Word) : Statement (.eorAbx addr) := rfl
theorem eorAby (addr : Word) : Statement (.eorAby addr) := rfl
theorem eorIzx (zp : Byte) : Statement (.eorIzx zp) := rfl
theorem eorIzy (zp : Byte) : Statement (.eorIzy zp) := rfl
theorem bitZp (zp : Byte) : Statement (.bitZp zp) := rfl
theorem bitAbs (addr : Word) : Statement (.bitAbs addr) := rfl
theorem cmpImm (imm : Byte) : Statement (.cmpImm imm) := rfl
theorem cmpZp (zp : Byte) : Statement (.cmpZp zp) := rfl
theorem cmpZpx (zp : Byte) : Statement (.cmpZpx zp) := rfl
theorem cmpAbs (addr : Word) : Statement (.cmpAbs addr) := rfl
theorem cmpAbx (addr : Word) : Statement (.cmpAbx addr) := rfl
theorem cmpAby (addr : Word) : Statement (.cmpAby addr) := rfl
theorem cmpIzx (zp : Byte) : Statement (.cmpIzx zp) := rfl
theorem cmpIzy (zp : Byte) : Statement (.cmpIzy zp) := rfl
theorem cpxImm (imm : Byte) : Statement (.cpxImm imm) := rfl
theorem cpxZp (zp : Byte) : Statement (.cpxZp zp) := rfl
theorem cpxAbs (addr : Word) : Statement (.cpxAbs addr) := rfl
theorem cpyImm (imm : Byte) : Statement (.cpyImm imm) := rfl
theorem cpyZp (zp : Byte) : Statement (.cpyZp zp) := rfl
theorem cpyAbs (addr : Word) : Statement (.cpyAbs addr) := rfl
theorem aslAcc : Statement .aslAcc := rfl
theorem aslZp (zp : Byte) : Statement (.aslZp zp) := rfl
theorem aslZpx (zp : Byte) : Statement (.aslZpx zp) := rfl
theorem aslAbs (addr : Word) : Statement (.aslAbs addr) := rfl
theorem aslAbx (addr : Word) : Statement (.aslAbx addr) := rfl
theorem lsrAcc : Statement .lsrAcc := rfl
theorem lsrZp (zp : Byte) : Statement (.lsrZp zp) := rfl
theorem lsrZpx (zp : Byte) : Statement (.lsrZpx zp) := rfl
theorem lsrAbs (addr : Word) : Statement (.lsrAbs addr) := rfl
theorem lsrAbx (addr : Word) : Statement (.lsrAbx addr) := rfl
theorem rolAcc : Statement .rolAcc := rfl
theorem rolZp (zp : Byte) : Statement (.rolZp zp) := rfl
theorem rolZpx (zp : Byte) : Statement (.rolZpx zp) := rfl
theorem rolAbs (addr : Word) : Statement (.rolAbs addr) := rfl
theorem rolAbx (addr : Word) : Statement (.rolAbx addr) := rfl
theorem rorAcc : Statement .rorAcc := rfl
theorem rorZp (zp : Byte) : Statement (.rorZp zp) := rfl
theorem rorZpx (zp : Byte) : Statement (.rorZpx zp) := rfl
theorem rorAbs (addr : Word) : Statement (.rorAbs addr) := rfl
theorem rorAbx (addr : Word) : Statement (.rorAbx addr) := rfl
theorem incZp (zp : Byte) : Statement (.incZp zp) := rfl
theorem incZpx (zp : Byte) : Statement (.incZpx zp) := rfl
theorem incAbs (addr : Word) : Statement (.incAbs addr) := rfl
theorem incAbx (addr : Word) : Statement (.incAbx addr) := rfl
theorem decZp (zp : Byte) : Statement (.decZp zp) := rfl
theorem decZpx (zp : Byte) : Statement (.decZpx zp) := rfl
theorem decAbs (addr : Word) : Statement (.decAbs addr) := rfl
theorem decAbx (addr : Word) : Statement (.decAbx addr) := rfl
theorem inx : Statement .inx := rfl
theorem iny : Statement .iny := rfl
theorem dex : Statement .dex := rfl
theorem dey : Statement .dey := rfl
theorem bpl (off : Byte) : Statement (.bpl off) := rfl
theorem bmi (off : Byte) : Statement (.bmi off) := rfl
theorem bvc (off : Byte) : Statement (.bvc off) := rfl
theorem bvs (off : Byte) : Statement (.bvs off) := rfl
theorem bcc (off : Byte) : Statement (.bcc off) := rfl
theorem bcs (off : Byte) : Statement (.bcs off) := rfl
theorem bne (off : Byte) : Statement (.bne off) := rfl
theorem beq (off : Byte) : Statement (.beq off) := rfl
theorem jmpAbs (addr : Word) : Statement (.jmpAbs addr) := rfl
theorem jmpInd (addr : Word) : Statement (.jmpInd addr) := rfl
theorem jsr (addr : Word) : Statement (.jsr addr) := rfl
theorem rts : Statement .rts := rfl
theorem rti : Statement .rti := rfl
theorem brk : Statement .brk := rfl
theorem pha : Statement .pha := rfl
theorem php : Statement .php := rfl
theorem pla : Statement .pla := rfl
theorem plp : Statement .plp := rfl
theorem ldaImm (imm : Byte) : Statement (.ldaImm imm) := rfl
theorem ldaZp (zp : Byte) : Statement (.ldaZp zp) := rfl
theorem ldaZpx (zp : Byte) : Statement (.ldaZpx zp) := rfl
theorem ldaAbs (addr : Word) : Statement (.ldaAbs addr) := rfl
theorem ldaAbx (addr : Word) : Statement (.ldaAbx addr) := rfl
theorem ldaAby (addr : Word) : Statement (.ldaAby addr) := rfl
theorem ldaIzx (zp : Byte) : Statement (.ldaIzx zp) := rfl
theorem ldaIzy (zp : Byte) : Statement (.ldaIzy zp) := rfl
theorem ldxImm (imm : Byte) : Statement (.ldxImm imm) := rfl
theorem ldxZp (zp : Byte) : Statement (.ldxZp zp) := rfl
theorem ldxZpy (zp : Byte) : Statement (.ldxZpy zp) := rfl
theorem ldxAbs (addr : Word) : Statement (.ldxAbs addr) := rfl
theorem ldxAby (addr : Word) : Statement (.ldxAby addr) := rfl
theorem ldyImm (imm : Byte) : Statement (.ldyImm imm) := rfl
theorem ldyZp (zp : Byte) : Statement (.ldyZp zp) := rfl
theorem ldyZpx (zp : Byte) : Statement (.ldyZpx zp) := rfl
theorem ldyAbs (addr : Word) : Statement (.ldyAbs addr) := rfl
theorem ldyAbx (addr : Word) : Statement (.ldyAbx addr) := rfl
theorem staZp (zp : Byte) : Statement (.staZp zp) := rfl
theorem staZpx (zp : Byte) : Statement (.staZpx zp) := rfl
theorem staAbs (addr : Word) : Statement (.staAbs addr) := rfl
theorem staAbx (addr : Word) : Statement (.staAbx addr) := rfl
theorem staAby (addr : Word) : Statement (.staAby addr) := rfl
theorem staIzx (zp : Byte) : Statement (.staIzx zp) := rfl
theorem staIzy (zp : Byte) : Statement (.staIzy zp) := rfl
theorem stxZp (zp : Byte) : Statement (.stxZp zp) := rfl
theorem stxZpy (zp : Byte) : Statement (.stxZpy zp) := rfl
theorem stxAbs (addr : Word) : Statement (.stxAbs addr) := rfl
theorem styZp (zp : Byte) : Statement (.styZp zp) := rfl
theorem styZpx (zp : Byte) : Statement (.styZpx zp) := rfl
theorem styAbs (addr : Word) : Statement (.styAbs addr) := rfl
theorem tax : Statement .tax := rfl
theorem tay : Statement .tay := rfl
theorem tsx : Statement .tsx := rfl
theorem txa : Statement .txa := rfl
theorem txs : Statement .txs := rfl
theorem tya : Statement .tya := rfl
theorem clc : Statement .clc := rfl
theorem cld : Statement .cld := rfl
theorem cli : Statement .cli := rfl
theorem clv : Statement .clv := rfl
theorem sec : Statement .sec := rfl
theorem sed : Statement .sed := rfl
theorem sei : Statement .sei := rfl
theorem nop : Statement .nop := rfl
theorem sentinel (opcode : Byte) : Statement (.sentinel opcode) := rfl

end Sys2Proof.Laws.EncodingLength
end

