-- ==== Sys2Proof/Laws/RunEnd.lean ====
section
/-! SUPPORT. What the tests for a run's end say, and how runs of moves split (70_reset_and_hazards.md R308, R315). -/

namespace Sys2Proof.Machine

open Sys2Proof.Safety

/-- The end boundary's test says what R315 names. -/
theorem isEndBoundary_some (a : Word) (s : State) : isEndBoundary (some a) s = true ↔ EndsAt a s := by
  simp [isEndBoundary, EndsAt, AtBoundary, and_assoc, @eq_comm _ a]

@[simp] theorem isEndBoundary_none (s : State) : isEndBoundary none s = false := by
  simp [isEndBoundary]

theorem finalEnd_none_iff (s : State) : finalEnd s = none ↔ s.run = .reset ∨ s.run = .running := by
  unfold finalEnd
  cases s.run <;> simp

theorem finalEnd_of_endsAt {a : Word} {s : State} (h : EndsAt a s) : finalEnd s = none :=
  (finalEnd_none_iff s).2 (.inr h.1.1)

/-- A final end is never `EndAt`, and it holds the state it is found in. -/
theorem finalEnd_some_cases {s : State} {e : RunEnd} (h : finalEnd s = some e) :
    (s.run = .stopped ∧ e = .stopped s) ∨ ∃ f, s.run = .halted f ∧ e = .halted f s := by
  unfold finalEnd at h
  cases hr : s.run <;> rw [hr] at h <;> simp at h <;> simp [← h]

@[simp] theorem runMoves_nil (s : State) : runMoves [] s = .next s := rfl

/-- A run that makes a move first goes on from the state the move leads to. -/
theorem runMoves_cons_next {m : Move} {ms : List Move} {s u : State} :
    runMoves (m :: ms) s = .next u ↔ ∃ t, move m s = .next t ∧ runMoves ms t = .next u := by
  rw [runMoves]
  cases move m s <;> simp

/-- Stopped is final (R307), and in Halted no tick is enabled (R262): no move leads out of a final end. -/
theorem finalEnd_move {m : Move} {s t : State} (h : finalEnd s ≠ none) (hm : move m s = .next t) : t.run = s.run := by
  have hr : s.run ≠ .reset ∧ s.run ≠ .running := by
    rw [Ne, finalEnd_none_iff, not_or] at h
    exact h
  cases m <;> simp only [move, load, powerOn, step, tick, raiseNmi, stopRun, hr, if_false] at hm <;>
    cases hs : s.run <;> simp_all <;> simp [← hm]

/-- `RunEnd.unended` is the only end a list of moves without one can have. -/
theorem runToEnd_nil (a : Option Word) (s : State) : runToEnd a [] s = (finalEnd s).getD (.unended s) := rfl

/-- A run before an end: the end test at a tick, else the move. -/
theorem runToEnd_cons {a : Option Word} {m : Move} {ms : List Move} {s : State} (h : finalEnd s = none) :
    runToEnd a (m :: ms) s =
      if m = .tick ∧ isEndBoundary a s = true then .endAt s
      else match move m s with
        | .next t => runToEnd a ms t
        | .fault f => .halted f s
        | .refused r => .refused r := by
  simp only [runToEnd, h] <;> rfl

/-- A run in a final end is over. -/
theorem runToEnd_of_final {a : Option Word} {s : State} {e : RunEnd} (ms : List Move) (h : finalEnd s = some e) :
    runToEnd a ms s = e := by
  cases ms <;> simp [runToEnd, h]

/-- The images a claim's address counts on. -/
theorem filter_imageHoldsSelfJump (prg : List Byte) (a : Word) :
    (some a).filter (imageHoldsSelfJump prg) = if imageHoldsSelfJump prg a then some a else none := rfl

end Sys2Proof.Machine
end

