-- ==== Sys2Proof/Laws/Safety.lean ====
section
/-! SUPPORT. What the shared operations do, in the terms of Safety: flags, memory and the stack. -/

namespace Sys2Proof.Safety

open Sys2Proof.Machine

/-- Bit 7 of a byte says that it is 128 or more. -/
theorem getLsbD_seven (v : Byte) : v.getLsbD 7 = decide (128 ≤ v.toNat) := by
  revert v; decide

theorem beq_zero_eq (v : Byte) : (v == 0#8) = decide (v.toNat = 0) := by
  rw [Bool.eq_iff_iff]; simp [BitVec.toNat_eq]

/-- A state whose P was last written by SetZN(v) has Z and N from v. -/
theorem flagsZN_of_p {v : Byte} {t : State} {p : Byte}
    (h : t.p = setBit 7 (v.getLsbD 7) (setBit 1 (v == 0#8) p)) : FlagsZN t v := by
  constructor
  · simp only [State.zero, h, beq_zero_eq]
    rw [getLsbD_setBit _ _ _ _ (by omega) (by omega), getLsbD_setBit _ _ _ _ (by omega) (by omega)]
    simp
  · simp only [State.negative, h]
    rw [getLsbD_setBit _ _ _ _ (by omega) (by omega)]
    simp only [if_true]; exact getLsbD_seven v

/-- Setting a bit inside a mask keeps the bits outside it. -/
theorem setBit_outside (i : Nat) (b : Bool) (p m : Byte) (hi : i < 8) (hm : m.getLsbD i = true) :
    setBit i b p &&& ~~~m = p &&& ~~~m := by
  apply BitVec.eq_of_getLsbD_eq
  intro j hj
  simp only [BitVec.getLsbD_and, BitVec.getLsbD_not, getLsbD_setBit i j b p hi hj]
  split
  · next h => subst h; simp [hm]
  · rfl

/-- Unchanged memory and parameters read as before. -/
theorem keepsMemory_of_eq {s t : State} (hm : t.mem = s.mem) (hc : t.cfg = s.cfg) : KeepsMemory s t :=
  fun b => memRead_congr hm hc b

/-- MemWrite stores the one byte its address reaches. -/
theorem storesByte_memWrite (a : Word) (v : Byte) (s : State) : StoresByte a v s (memWrite a v s) := by
  intro b
  rw [memRead_memWrite]
  unfold sameByte
  congr 1
  rw [Bool.and_eq_true, beq_iff_eq]
  exact propext ⟨fun h => ⟨h.1.symm, h.2⟩, fun h => ⟨h.1.symm, h.2⟩⟩

theorem StoresByte.congr {s t u : State} {a : Word} {v : Byte} (h : StoresByte a v s t)
    (hm : u.mem = t.mem) (hc : u.cfg = t.cfg) : StoresByte a v s u :=
  fun b => by rw [memRead_congr hm hc]; exact h b

/-- Push8 stores one byte at 0x0100 + S. -/
theorem storesByte_push8 (v : Byte) (s : State) : StoresByte (stackAddr s.sp) v s (push8 v s) :=
  (storesByte_memWrite _ v s).congr (by simp) (by simp)

/-- The byte at a stack address after Push8. -/
theorem memRead_push8 (v : Byte) (sp : Byte) (s : State) :
    memRead (push8 v s) (stackAddr sp) = if sp = s.sp then v else memRead s (stackAddr sp) := by
  rw [storesByte_push8 v s]
  simp only [sameByte, locate_stackAddr, Option.isSome_some, Bool.and_true]
  by_cases h : sp = s.sp
  · subst h; simp
  · have : ¬ s.sp.toNat = sp.toNat := fun e => h (BitVec.eq_of_toNat_eq e.symm)
    simp [h, this]

/-- A vector byte, in PRG, is not touched by Push8. -/
theorem memRead_push8_prg (v : Byte) (a : Word) (s : State) (h : 0x8000 ≤ a.toNat) :
    memRead (push8 v s) a = memRead s a := by
  rw [storesByte_push8 v s]
  have : ∀ o k : Nat, k < 256 → ¬ (some (0x100 + k) = some (0x8000 + o)) := by
    intro o k hk e
    injection e with e
    omega
  have h1 : ¬ a.toNat < 0x2000 := by omega
  have h2 : ¬ a.toNat < 0x8000 := by omega
  have hs := this (prgOffset s.cfg.prgBanks a) s.sp.toNat s.sp.isLt
  have hl : locate s.cfg.prgBanks a = some (0x8000 + prgOffset s.cfg.prgBanks a) := by
    unfold locate
    rw [if_neg h1, if_neg h2]
  unfold sameByte
  rw [locate_stackAddr, hl]
  simp only [Option.isSome_some, Bool.and_true]
  rw [if_neg]
  intro e
  exact hs (beq_iff_eq.mp e)

/-- A state whose P was last written by SetZN(v): Z and N from v, every other flag kept. -/
theorem flagsZN_keepsFlags {s t : State} {r : Byte} (h : t.p = setBit 7 (r.getLsbD 7) (setBit 1 (r == 0#8) s.p)) :
    FlagsZN t r ∧ KeepsFlags 0x82#8 s t := by
  refine ⟨flagsZN_of_p h, ?_⟩
  simp only [KeepsFlags, h]
  rw [setBit_outside _ _ _ _ (by omega) (by decide), setBit_outside _ _ _ _ (by omega) (by decide)]

/-- A state whose P was last written by a C write and then SetZN(v). -/
theorem carry_flagsZN_keepsFlags {s t : State} {r : Byte} {c : Bool}
    (h : t.p = setBit 7 (r.getLsbD 7) (setBit 1 (r == 0#8) (setBit 0 c s.p))) :
    t.carry = c ∧ FlagsZN t r ∧ KeepsFlags 0x83#8 s t := by
  refine ⟨?_, flagsZN_of_p h, ?_⟩
  · simp [State.carry, h]
  · simp only [KeepsFlags, h]
    rw [setBit_outside _ _ _ _ (by omega) (by decide), setBit_outside _ _ _ _ (by omega) (by decide),
      setBit_outside _ _ _ _ (by omega) (by decide)]

/-- Two states with the same PC and control state. -/
def SamePcAndControl (s t : State) : Prop :=
  t.pc = s.pc ∧ t.cycles = s.cycles ∧ t.nmiPending = s.nmiPending ∧ t.irqLine = s.irqLine ∧ t.run = s.run ∧ t.cfg = s.cfg

/-- An instruction that ends in `retire` completes, with PC advanced by its length. -/
theorem completes_of_retire (i : Instr) (k : Kind) (o : Operand) (x : Nat) (s t : State) (post : State → Prop)
    (he : exec i s = .next (retire k o x t)) (hk : i.kind = k) (ho : i.operand = o) (hc : SamePcAndControl s t)
    (hp : post (retire k o x t)) : Completes i s x post := by
  obtain ⟨h1, h2, h3, h4, h5, h6⟩ := hc
  refine ⟨_, he, ?_, ?_, ⟨?_, ?_, ?_, ?_, ?_⟩, hp⟩
  · simp [h1, Instr.length, Instr.mode, ho]
  · simp [h6, Instr.mode, ho, hk]
  all_goals simp [*]

/-- An instruction that writes PC itself and ends in `charge` completes at that PC. -/
theorem completesAt_of_charge (i : Instr) (k : Kind) (o : Operand) (x : Nat) (s t : State) (pc : Word)
    (post : State → Prop) (he : exec i s = .next (charge k o x t)) (hk : i.kind = k) (ho : i.operand = o)
    (hc : KeepsControl s t) (hpc : t.pc = pc) (hp : post (charge k o x t)) : CompletesAt i s pc x post := by
  obtain ⟨h2, h3, h4, h5, h6⟩ := hc
  refine ⟨_, he, ?_, ?_, ⟨?_, ?_, ?_, ?_, ?_⟩, hp⟩
  · simp [hpc]
  · simp [h6, Instr.mode, ho, hk]
  all_goals simp [*]

/-- A post-condition may be weakened. -/
theorem Completes.mono {i : Instr} {s : State} {x : Nat} {post post' : State → Prop} (h : Completes i s x post)
    (hp : ∀ t, post t → post' t) : Completes i s x post' := by
  obtain ⟨t, a, b, c, d, e⟩ := h
  exact ⟨t, a, b, c, d, hp t e⟩

theorem hi_eq_ofNat (w : Word) : hi w = BitVec.ofNat 8 (w.toNat / 256) := by
  apply BitVec.eq_of_toNat_eq
  simp [hi, BitVec.extractLsb'_toNat, Nat.shiftRight_eq_div_pow]

theorem lo_eq_ofNat (w : Word) : lo w = BitVec.ofNat 8 w.toNat := by
  apply BitVec.eq_of_toNat_eq
  simp [lo, BitVec.extractLsb'_toNat]

theorem cat_eq_ofNat (h l : Byte) : cat h l = BitVec.ofNat 16 (l.toNat + 256 * h.toNat) := by
  apply BitVec.eq_of_toNat_eq
  rw [toNat_cat]
  have := h.isLt
  have := l.isLt
  simp
  omega

theorem StoresBytes.congr {l : List (Word × Byte)} {s t u : State} (h : StoresBytes l s t)
    (hm : u.mem = t.mem) (hc : u.cfg = t.cfg) : StoresBytes l s u :=
  fun b => by rw [memRead_congr hm hc]; exact h b

/-- One more push after a list of stores. -/
theorem storesBytes_push8 (v sp : Byte) (s t : State) (l : List (Word × Byte)) (h : StoresBytes l s t)
    (hc : t.cfg = s.cfg) (hs : t.sp = sp) : StoresBytes (l ++ [(stackAddr sp, v)]) s (push8 v t) := by
  subst hs
  intro b
  rw [storesByte_push8 v t b, hc, h b]
  simp

/-- Push16 stores the high byte and, one lower in the stack page, the low byte (R25). -/
theorem storesBytes_push16 (w : Word) (s : State) :
    StoresBytes [(stackAddr s.sp, hi w), (stackAddr (s.sp - 1), lo w)] s (push16 w s) :=
  storesBytes_push8 (lo w) (s.sp - 1) s _ _ (storesBytes_push8 (hi w) s.sp s s [] (fun _ => rfl) rfl rfl) (by simp) (by simp)

theorem sub_one_sub_one (sp : Byte) : sp - 1 - 1 = sp - 2 := by revert sp; decide

/-- Taking an exception stores the return address and the status byte (R204, R269). -/
theorem storesBytes_enterException (ret : Word) (pushed newP : Byte) (vec : Word) (s : State) :
    StoresBytes [(stackAddr s.sp, hi ret), (stackAddr (s.sp - 1), lo ret), (stackAddr (s.sp - 2), pushed)] s
      (enterException ret pushed newP vec s) :=
  StoresBytes.congr
    (storesBytes_push8 pushed (s.sp - 2) s _ _ (storesBytes_push16 ret s) (by simp) (by simp; exact sub_one_sub_one _))
    rfl rfl

/-- Taking an exception loads PC from the vector, which no push can reach (R64). -/
theorem enterException_pc (ret : Word) (pushed newP : Byte) (vec : Word) (s : State) (h : 0x8000 ≤ vec.toNat)
    (h' : 0x8000 ≤ (vec + 1).toNat) : (enterException ret pushed newP vec s).pc = wordAt s vec := by
  show memRead16 (push8 pushed (push16 ret s)) vec = _
  unfold memRead16 wordAt push16
  rw [memRead_push8_prg _ _ _ h, memRead_push8_prg _ _ _ h', memRead_push8_prg _ _ _ h, memRead_push8_prg _ _ _ h',
    memRead_push8_prg _ _ _ h, memRead_push8_prg _ _ _ h', cat_eq_ofNat]

/-- A pull gives back what was pushed (R24). -/
theorem pullByte_push8 (v : Byte) (s : State) : pullByte (push8 v s) = v := by
  simp [pullByte, memRead_push8]

theorem pullByte_congr {s t : State} (hm : t.mem = s.mem) (hc : t.cfg = s.cfg) (hs : t.sp = s.sp) :
    pullByte t = pullByte s := by
  unfold pullByte
  rw [hs, memRead_congr hm hc]

theorem pullWord_congr {s t : State} (hm : t.mem = s.mem) (hc : t.cfg = s.cfg) (hs : t.sp = s.sp) :
    pullWord t = pullWord s := by
  unfold pullWord
  rw [pullByte_congr hm hc hs, pullByte_congr (s := afterPull s) (by simpa) (by simpa) (by simpa)]

theorem sub_one_add_one_twice (sp : Byte) : sp - 1 - 1 + 1 + 1 = sp := by revert sp; decide

/-- A pulled word is the word pushed last (R25). -/
theorem pullWord_push16 (w : Word) (s : State) : pullWord (push16 w s) = w := by
  have h1 : pullByte (push16 w s) = lo w := pullByte_push8 _ _
  have h2 : pullByte (afterPull (push16 w s)) = hi w := by
    show memRead (push16 w s) (stackAddr ((afterPull (push16 w s)).sp + 1)) = _
    simp only [afterPull_sp]
    unfold push16
    simp only [push8_sp]
    rw [sub_one_add_one_twice, memRead_push8, memRead_push8, if_pos rfl, if_neg]
    simp only [push8_sp]
    generalize s.sp = q
    revert q
    decide
  unfold pullWord
  rw [h1, h2, cat_hi_lo]

end Sys2Proof.Safety
end

