-- ==== Sys2Proof/Tests/Slice0.lean ====
section
/-! SUPPORT. The model's own tests: well-formedness, decoding, one step of each instruction against the spec's vectors
(95_test_vectors.md, computed from the rules by the spec's author), and a witness of the hypotheses of each obligation. -/

namespace Sys2Proof.Tests

open Sys2Proof Sys2Proof.Machine Sys2Proof.Safety

/-- The state the vectors start from: after reset with one bank, PC at 0x8000. -/
def start : State := { State.reset with pc := 0x8000#16 }

/-- The state with bytes stored in memory. -/
def withBytes (stores : List (Word × Byte)) (s : State) : State := stores.foldl (fun t st => memWrite st.1 st.2 t) s

/-- Whether an outcome is a next state that passes a check. -/
def isNext (o : Host.Outcome State Fault Refusal) (check : State → Bool) : Bool :=
  match o with
  | .next t => check t
  | .fault _ => false
  | .refused _ => false

/-- Whether the step that runs the instruction b0 b1 b2 placed at PC gives a next state that passes a check. -/
def ran (b0 b1 b2 : Byte) (s : State) (check : State → Bool) : Bool := isNext (step (placeAtPc b0 b1 b2 s)) check

/-! Well-formedness: an ill-formed term for each check. -/

/-- 0xEA is NOP's opcode, so no sentinel has it (R85). -/
theorem test_wf_sentinel : (Instr.sentinel 0xEA#8).wf true = false ∧ (Instr.sentinel 0x02#8).wf true = true := by decide

/-- AND exists only under ADMIT_UNLISTED_KINDS (R86). -/
theorem test_wf_unlisted : (Instr.andImm 0x0F#8).wf false = false ∧ (Instr.andImm 0x0F#8).wf true = true := by decide

/-- 0x29 is a sentinel opcode only where AND does not exist (R86). -/
theorem test_wf_sentinel_unlisted : (Instr.sentinel 0x29#8).wf true = false ∧ (Instr.sentinel 0x29#8).wf false = true := by
  decide

/-! Decoding. -/

/-- Whether the sixteen opcodes from op up, each followed by 0x34 0x12, decode to these instructions, in order. -/
def rowDecodes (op : Nat) (row : List Instr) : Bool :=
  (List.range 16).map (fun n => decodeOp true (BitVec.ofNat 8 (op + n)) 0x34#8 0x12#8) == row

/-- The opcodes 0x00 to 0x0F, each followed by 0x34 0x12. -/
theorem test_decode_row_0 : rowDecodes 0x00
    ([.brk, .oraIzx 0x34#8, .sentinel 0x02#8, .sentinel 0x03#8, .sentinel 0x04#8, .oraZp 0x34#8, .aslZp 0x34#8, .sentinel 0x07#8]
      ++ [.php, .oraImm 0x34#8, .aslAcc, .sentinel 0x0B#8, .sentinel 0x0C#8, .oraAbs 0x1234#16, .aslAbs 0x1234#16, .sentinel 0x0F#8]) = true := by
  decide

/-- The opcodes 0x10 to 0x1F, each followed by 0x34 0x12. -/
theorem test_decode_row_1 : rowDecodes 0x10
    ([.bpl 0x34#8, .oraIzy 0x34#8, .sentinel 0x12#8, .sentinel 0x13#8, .sentinel 0x14#8, .oraZpx 0x34#8, .aslZpx 0x34#8, .sentinel 0x17#8]
      ++ [.clc, .oraAby 0x1234#16, .sentinel 0x1A#8, .sentinel 0x1B#8, .sentinel 0x1C#8, .oraAbx 0x1234#16, .aslAbx 0x1234#16, .sentinel 0x1F#8]) = true := by
  decide

/-- The opcodes 0x20 to 0x2F, each followed by 0x34 0x12. -/
theorem test_decode_row_2 : rowDecodes 0x20
    ([.jsr 0x1234#16, .andIzx 0x34#8, .sentinel 0x22#8, .sentinel 0x23#8, .bitZp 0x34#8, .andZp 0x34#8, .rolZp 0x34#8, .sentinel 0x27#8]
      ++ [.plp, .andImm 0x34#8, .rolAcc, .sentinel 0x2B#8, .bitAbs 0x1234#16, .andAbs 0x1234#16, .rolAbs 0x1234#16, .sentinel 0x2F#8]) = true := by
  decide

/-- The opcodes 0x30 to 0x3F, each followed by 0x34 0x12. -/
theorem test_decode_row_3 : rowDecodes 0x30
    ([.bmi 0x34#8, .andIzy 0x34#8, .sentinel 0x32#8, .sentinel 0x33#8, .sentinel 0x34#8, .andZpx 0x34#8, .rolZpx 0x34#8, .sentinel 0x37#8]
      ++ [.sec, .andAby 0x1234#16, .sentinel 0x3A#8, .sentinel 0x3B#8, .sentinel 0x3C#8, .andAbx 0x1234#16, .rolAbx 0x1234#16, .sentinel 0x3F#8]) = true := by
  decide

/-- The opcodes 0x40 to 0x4F, each followed by 0x34 0x12. -/
theorem test_decode_row_4 : rowDecodes 0x40
    ([.rti, .eorIzx 0x34#8, .sentinel 0x42#8, .sentinel 0x43#8, .sentinel 0x44#8, .eorZp 0x34#8, .lsrZp 0x34#8, .sentinel 0x47#8]
      ++ [.pha, .eorImm 0x34#8, .lsrAcc, .sentinel 0x4B#8, .jmpAbs 0x1234#16, .eorAbs 0x1234#16, .lsrAbs 0x1234#16, .sentinel 0x4F#8]) = true := by
  decide

/-- The opcodes 0x50 to 0x5F, each followed by 0x34 0x12. -/
theorem test_decode_row_5 : rowDecodes 0x50
    ([.bvc 0x34#8, .eorIzy 0x34#8, .sentinel 0x52#8, .sentinel 0x53#8, .sentinel 0x54#8, .eorZpx 0x34#8, .lsrZpx 0x34#8, .sentinel 0x57#8]
      ++ [.cli, .eorAby 0x1234#16, .sentinel 0x5A#8, .sentinel 0x5B#8, .sentinel 0x5C#8, .eorAbx 0x1234#16, .lsrAbx 0x1234#16, .sentinel 0x5F#8]) = true := by
  decide

/-- The opcodes 0x60 to 0x6F, each followed by 0x34 0x12. -/
theorem test_decode_row_6 : rowDecodes 0x60
    ([.rts, .adcIzx 0x34#8, .sentinel 0x62#8, .sentinel 0x63#8, .sentinel 0x64#8, .adcZp 0x34#8, .rorZp 0x34#8, .sentinel 0x67#8]
      ++ [.pla, .adcImm 0x34#8, .rorAcc, .sentinel 0x6B#8, .jmpInd 0x1234#16, .adcAbs 0x1234#16, .rorAbs 0x1234#16, .sentinel 0x6F#8]) = true := by
  decide

/-- The opcodes 0x70 to 0x7F, each followed by 0x34 0x12. -/
theorem test_decode_row_7 : rowDecodes 0x70
    ([.bvs 0x34#8, .adcIzy 0x34#8, .sentinel 0x72#8, .sentinel 0x73#8, .sentinel 0x74#8, .adcZpx 0x34#8, .rorZpx 0x34#8, .sentinel 0x77#8]
      ++ [.sei, .adcAby 0x1234#16, .sentinel 0x7A#8, .sentinel 0x7B#8, .sentinel 0x7C#8, .adcAbx 0x1234#16, .rorAbx 0x1234#16, .sentinel 0x7F#8]) = true := by
  decide

/-- The opcodes 0x80 to 0x8F, each followed by 0x34 0x12. -/
theorem test_decode_row_8 : rowDecodes 0x80
    ([.sentinel 0x80#8, .staIzx 0x34#8, .sentinel 0x82#8, .sentinel 0x83#8, .styZp 0x34#8, .staZp 0x34#8, .stxZp 0x34#8, .sentinel 0x87#8]
      ++ [.dey, .sentinel 0x89#8, .txa, .sentinel 0x8B#8, .styAbs 0x1234#16, .staAbs 0x1234#16, .stxAbs 0x1234#16, .sentinel 0x8F#8]) = true := by
  decide

/-- The opcodes 0x90 to 0x9F, each followed by 0x34 0x12. -/
theorem test_decode_row_9 : rowDecodes 0x90
    ([.bcc 0x34#8, .staIzy 0x34#8, .sentinel 0x92#8, .sentinel 0x93#8, .styZpx 0x34#8, .staZpx 0x34#8, .stxZpy 0x34#8, .sentinel 0x97#8]
      ++ [.tya, .staAby 0x1234#16, .txs, .sentinel 0x9B#8, .sentinel 0x9C#8, .staAbx 0x1234#16, .sentinel 0x9E#8, .sentinel 0x9F#8]) = true := by
  decide

/-- The opcodes 0xA0 to 0xAF, each followed by 0x34 0x12. -/
theorem test_decode_row_A : rowDecodes 0xA0
    ([.ldyImm 0x34#8, .ldaIzx 0x34#8, .ldxImm 0x34#8, .sentinel 0xA3#8, .ldyZp 0x34#8, .ldaZp 0x34#8, .ldxZp 0x34#8, .sentinel 0xA7#8]
      ++ [.tay, .ldaImm 0x34#8, .tax, .sentinel 0xAB#8, .ldyAbs 0x1234#16, .ldaAbs 0x1234#16, .ldxAbs 0x1234#16, .sentinel 0xAF#8]) = true := by
  decide

/-- The opcodes 0xB0 to 0xBF, each followed by 0x34 0x12. -/
theorem test_decode_row_B : rowDecodes 0xB0
    ([.bcs 0x34#8, .ldaIzy 0x34#8, .sentinel 0xB2#8, .sentinel 0xB3#8, .ldyZpx 0x34#8, .ldaZpx 0x34#8, .ldxZpy 0x34#8, .sentinel 0xB7#8]
      ++ [.clv, .ldaAby 0x1234#16, .tsx, .sentinel 0xBB#8, .ldyAbx 0x1234#16, .ldaAbx 0x1234#16, .ldxAby 0x1234#16, .sentinel 0xBF#8]) = true := by
  decide

/-- The opcodes 0xC0 to 0xCF, each followed by 0x34 0x12. -/
theorem test_decode_row_C : rowDecodes 0xC0
    ([.cpyImm 0x34#8, .cmpIzx 0x34#8, .sentinel 0xC2#8, .sentinel 0xC3#8, .cpyZp 0x34#8, .cmpZp 0x34#8, .decZp 0x34#8, .sentinel 0xC7#8]
      ++ [.iny, .cmpImm 0x34#8, .dex, .sentinel 0xCB#8, .cpyAbs 0x1234#16, .cmpAbs 0x1234#16, .decAbs 0x1234#16, .sentinel 0xCF#8]) = true := by
  decide

/-- The opcodes 0xD0 to 0xDF, each followed by 0x34 0x12. -/
theorem test_decode_row_D : rowDecodes 0xD0
    ([.bne 0x34#8, .cmpIzy 0x34#8, .sentinel 0xD2#8, .sentinel 0xD3#8, .sentinel 0xD4#8, .cmpZpx 0x34#8, .decZpx 0x34#8, .sentinel 0xD7#8]
      ++ [.cld, .cmpAby 0x1234#16, .sentinel 0xDA#8, .sentinel 0xDB#8, .sentinel 0xDC#8, .cmpAbx 0x1234#16, .decAbx 0x1234#16, .sentinel 0xDF#8]) = true := by
  decide

/-- The opcodes 0xE0 to 0xEF, each followed by 0x34 0x12. -/
theorem test_decode_row_E : rowDecodes 0xE0
    ([.cpxImm 0x34#8, .sbcIzx 0x34#8, .sentinel 0xE2#8, .sentinel 0xE3#8, .cpxZp 0x34#8, .sbcZp 0x34#8, .incZp 0x34#8, .sentinel 0xE7#8]
      ++ [.inx, .sbcImm 0x34#8, .nop, .sentinel 0xEB#8, .cpxAbs 0x1234#16, .sbcAbs 0x1234#16, .incAbs 0x1234#16, .sentinel 0xEF#8]) = true := by
  decide

/-- The opcodes 0xF0 to 0xFF, each followed by 0x34 0x12. -/
theorem test_decode_row_F : rowDecodes 0xF0
    ([.beq 0x34#8, .sbcIzy 0x34#8, .sentinel 0xF2#8, .sentinel 0xF3#8, .sentinel 0xF4#8, .sbcZpx 0x34#8, .incZpx 0x34#8, .sentinel 0xF7#8]
      ++ [.sed, .sbcAby 0x1234#16, .sentinel 0xFA#8, .sentinel 0xFB#8, .sentinel 0xFC#8, .sbcAbx 0x1234#16, .incAbx 0x1234#16, .sentinel 0xFF#8]) = true := by
  decide
/-! One word of each family, bit by bit: the opcode byte is bits 7..0, an operand byte bits 15..8, the high byte of a
16-bit operand bits 23..16 (R80, R82, R84). -/

/-- ADC #$10: opcode 0110 1001, imm8 0001 0000. -/
theorem test_word_adc : decodeTableWord 16 0b0001000001101001 = some (.adcImm 0x10#8) := by decide

/-- ROR $0200,X: opcode 0111 1110, abs16 low 0000 0000, high 0000 0010. -/
theorem test_word_ror : decodeTableWord 24 0b000000100000000001111110 = some (.rorAbx 0x0200#16) := by decide

/-- BNE -5: opcode 1101 0000, off8 1111 1011. -/
theorem test_word_bne : decodeTableWord 16 0b1111101111010000 = some (.bne 0xFB#8) := by decide

/-- JMP $8004: opcode 0100 1100, abs16 low 0000 0100, high 1000 0000. -/
theorem test_word_jmp : decodeTableWord 24 0b100000000000010001001100 = some (.jmpAbs 0x8004#16) := by decide

/-- STA $10: opcode 1000 0101, zp8 0001 0000. -/
theorem test_word_sta : decodeTableWord 16 0b0001000010000101 = some (.staZp 0x10#8) := by decide

/-- PHA: opcode 0100 1000. -/
theorem test_word_pha : decodeTableWord 8 0b01001000 = some .pha := by decide

/-- SEI: opcode 0111 1000. -/
theorem test_word_sei : decodeTableWord 8 0b01111000 = some .sei := by decide

/-- A word shorter than its instruction has zeros above: LDA $0000 from its opcode byte alone. -/
theorem test_word_short : decodeTableWord 8 0xAD = some (.ldaAbs 0x0000#16) := by decide

/-- A list that ends before an operand byte does not decode. -/
theorem test_decode_missing : decode true [0xAD#8, 0x34#8] = .error (.missingOperandByte 0xAD#8) := by rfl

/-! One step of each instruction, from the spec's vectors. -/

/-- VA2: ADC #$01. -/
theorem test_VA2_adcimm :
    ran 0x69#8 0x01#8 0x00#8 { start with a := 0x7F#8 }
      (fun t => t.a == 0x80#8 && t.p == 0xE4#8 && t.owed == 1) = true := by
  decide

/-- VA6: ADC #$10 with D=1. -/
theorem test_VA6_adcimm :
    ran 0x69#8 0x10#8 0x00#8 { start with a := 0x09#8, p := 0x2C#8 }
      (fun t => t.a == 0x19#8 && t.p == 0x2C#8 && t.owed == 1) = true := by
  decide

/-- VA7: SBC #$01. -/
theorem test_VA7_sbcimm :
    ran 0xE9#8 0x01#8 0x00#8 { start with a := 0x00#8, p := 0x25#8 }
      (fun t => t.a == 0xFF#8 && t.p == 0xA4#8 && t.owed == 1) = true := by
  decide

/-- VA12: SBC #$FF. -/
theorem test_VA12_sbcimm :
    ran 0xE9#8 0xFF#8 0x00#8 { start with a := 0x7F#8, p := 0x25#8 }
      (fun t => t.a == 0x80#8 && t.p == 0xE4#8 && t.owed == 1) = true := by
  decide

/-- VA30: AND $02FF,Y (cross). -/
theorem test_VA30_andaby :
    ran 0x39#8 0xFF#8 0x02#8 (withBytes [(0x0300#16, 0x81#8)] { start with a := 0xFF#8, y := 0x01#8 })
      (fun t => t.a == 0x81#8 && t.p == 0xA4#8 && t.owed == 4) = true := by
  decide

/-- VA15: ORA #$80. -/
theorem test_VA15_oraimm :
    ran 0x09#8 0x80#8 0x00#8 { start with a := 0x01#8 }
      (fun t => t.a == 0x81#8 && t.p == 0xA4#8 && t.owed == 1) = true := by
  decide

/-- VA17: EOR $10. -/
theorem test_VA17_eorzp :
    ran 0x45#8 0x10#8 0x00#8 (withBytes [(0x0010#16, 0x3C#8)] { start with a := 0x3C#8 })
      (fun t => t.a == 0x00#8 && t.p == 0x26#8 && t.owed == 2) = true := by
  decide

/-- VA18: BIT $10. -/
theorem test_VA18_bitzp :
    ran 0x24#8 0x10#8 0x00#8 (withBytes [(0x0010#16, 0x41#8)] { start with a := 0x01#8 })
      (fun t => t.a == 0x01#8 && t.p == 0x64#8 && t.owed == 2) = true := by
  decide

/-- VA19: BIT $10. -/
theorem test_VA19_bitzp :
    ran 0x24#8 0x10#8 0x00#8 (withBytes [(0x0010#16, 0xC0#8)] { start with a := 0x3F#8 })
      (fun t => t.a == 0x3F#8 && t.p == 0xE6#8 && t.owed == 2) = true := by
  decide

/-- VA23: CMP #$20. -/
theorem test_VA23_cmpimm :
    ran 0xC9#8 0x20#8 0x00#8 { start with a := 0x10#8, p := 0x25#8 }
      (fun t => t.a == 0x10#8 && t.p == 0xA4#8 && t.owed == 1) = true := by
  decide

/-- VA29: CMP ($20),Y (cross). -/
theorem test_VA29_cmpizy :
    ran 0xD1#8 0x20#8 0x00#8 (withBytes [(0x0020#16, 0xFF#8), (0x0021#16, 0x02#8), (0x0300#16, 0x07#8)] { start with a := 0x07#8, y := 0x01#8 })
      (fun t => t.a == 0x07#8 && t.p == 0x27#8 && t.owed == 5) = true := by
  decide

/-- VA24: CPX #$10. -/
theorem test_VA24_cpximm :
    ran 0xE0#8 0x10#8 0x00#8 { start with x := 0x08#8 }
      (fun t => t.x == 0x08#8 && t.p == 0xA4#8 && t.owed == 1) = true := by
  decide

/-- VA26: CPY #$01. -/
theorem test_VA26_cpyimm :
    ran 0xC0#8 0x01#8 0x00#8 { start with y := 0x02#8 }
      (fun t => t.y == 0x02#8 && t.p == 0x25#8 && t.owed == 1) = true := by
  decide

/-- VM4: LDA $FFF0,X. -/
theorem test_VM4_ldaabx :
    ran 0xBD#8 0xF0#8 0xFF#8 (withBytes [(0x0010#16, 0x66#8)] { start with x := 0x20#8 })
      (fun t => t.a == 0x66#8 && t.p == 0x24#8 && t.owed == 4) = true := by
  decide

/-- VM8: LDA ($FF),Y. -/
theorem test_VM8_ldaizy :
    ran 0xB1#8 0xFF#8 0x00#8 (withBytes [(0x00FF#16, 0x10#8), (0x0000#16, 0x03#8), (0x0311#16, 0x5A#8)] { start with y := 0x01#8 })
      (fun t => t.a == 0x5A#8 && t.p == 0x24#8 && t.owed == 4) = true := by
  decide

/-- VM2: LDX $FF,Y. -/
theorem test_VM2_ldxzpy :
    ran 0xB6#8 0xFF#8 0x00#8 (withBytes [(0x0001#16, 0x42#8)] { start with y := 0x02#8 })
      (fun t => t.x == 0x42#8 && t.p == 0x24#8 && t.owed == 3) = true := by
  decide

/-- VT9: LDX $02F0,Y. -/
theorem test_VT9_ldxaby :
    ran 0xBE#8 0xF0#8 0x02#8 (withBytes [(0x0310#16, 0x80#8)] { start with y := 0x20#8 })
      (fun t => t.x == 0x80#8 && t.p == 0xA4#8 && t.owed == 4) = true := by
  decide

/-- VT10: LDY #$FF. -/
theorem test_VT10_ldyimm :
    ran 0xA0#8 0xFF#8 0x00#8 start
      (fun t => t.y == 0xFF#8 && t.p == 0xA4#8 && t.owed == 1) = true := by
  decide

/-- VM10: JMP ($02FF), wrap. -/
theorem test_VM10_jmpind :
    ran 0x6C#8 0xFF#8 0x02#8 (withBytes [(0x02FF#16, 0x34#8), (0x0200#16, 0x12#8), (0x0300#16, 0x56#8)] start)
      (fun t => t.pc == 0x1234#16 && t.owed == 4) = true := by
  decide

/-- VM11: JMP ($02FF), corrected. -/
theorem test_VM11_jmpind :
    ran 0x6C#8 0xFF#8 0x02#8 (withBytes [(0x02FF#16, 0x34#8), (0x0200#16, 0x12#8), (0x0300#16, 0x56#8)] { start with cfg := { defaultConfig with jmpIndPageWrap := false } })
      (fun t => t.pc == 0x5634#16 && t.owed == 4) = true := by
  decide

/-- VC1: JMP $8004. -/
theorem test_VC1_jmpabs :
    ran 0x4C#8 0x04#8 0x80#8 start
      (fun t => t.pc == 0x8004#16 && t.owed == 2) = true := by
  decide

/-- VS1: ASL A. -/
theorem test_VS1_aslacc :
    ran 0x0A#8 0x00#8 0x00#8 { start with a := 0x81#8 }
      (fun t => t.a == 0x02#8 && t.p == 0x25#8 && t.owed == 1) = true := by
  decide

/-- VS10: ASL $0200,X. -/
theorem test_VS10_aslabx :
    ran 0x1E#8 0x00#8 0x02#8 (withBytes [(0x0205#16, 0x01#8)] { start with x := 0x05#8 })
      (fun t => t.p == 0x24#8 && memRead t 0x0205#16 == 0x02#8 && t.owed == 6) = true := by
  decide

/-- VS4: LSR A. -/
theorem test_VS4_lsracc :
    ran 0x4A#8 0x00#8 0x00#8 { start with a := 0x01#8 }
      (fun t => t.a == 0x00#8 && t.p == 0x27#8 && t.owed == 1) = true := by
  decide

/-- VS5: LSR $10. -/
theorem test_VS5_lsrzp :
    ran 0x46#8 0x10#8 0x00#8 (withBytes [(0x0010#16, 0x02#8)] start)
      (fun t => t.p == 0x24#8 && memRead t 0x0010#16 == 0x01#8 && t.owed == 4) = true := by
  decide

/-- VS6: ROL A. -/
theorem test_VS6_rolacc :
    ran 0x2A#8 0x00#8 0x00#8 { start with a := 0x40#8, p := 0x25#8 }
      (fun t => t.a == 0x81#8 && t.p == 0xA4#8 && t.owed == 1) = true := by
  decide

/-- VS11: ROL $0200. -/
theorem test_VS11_rolabs :
    ran 0x2E#8 0x00#8 0x02#8 (withBytes [(0x0200#16, 0xFF#8)] start)
      (fun t => t.p == 0xA5#8 && memRead t 0x0200#16 == 0xFE#8 && t.owed == 5) = true := by
  decide

/-- VS8: ROR A. -/
theorem test_VS8_roracc :
    ran 0x6A#8 0x00#8 0x00#8 { start with a := 0x01#8, p := 0x25#8 }
      (fun t => t.a == 0x80#8 && t.p == 0xA5#8 && t.owed == 1) = true := by
  decide

/-- VS9: ROR $10,X. -/
theorem test_VS9_rorzpx :
    ran 0x76#8 0x10#8 0x00#8 (withBytes [(0x0011#16, 0x00#8)] { start with x := 0x01#8, p := 0x25#8 })
      (fun t => t.p == 0xA4#8 && memRead t 0x0011#16 == 0x80#8 && t.owed == 5) = true := by
  decide

/-- VS15: INC $4000. -/
theorem test_VS15_incabs :
    ran 0xEE#8 0x00#8 0x40#8 start
      (fun t => t.p == 0x24#8 && memRead t 0x4000#16 == 0x00#8 && t.owed == 5) = true := by
  decide

/-- VS23: INC $8000. -/
theorem test_VS23_incabs :
    ran 0xEE#8 0x00#8 0x80#8 { start with pc := 0x0200#16 }
      (fun t => t.p == 0x24#8 && memRead t 0x8000#16 == 0x01#8 && t.owed == 5) = true := by
  decide

/-- VS16: DEC $10,X. -/
theorem test_VS16_deczpx :
    ran 0xD6#8 0x10#8 0x00#8 (withBytes [(0x0011#16, 0x00#8)] { start with x := 0x01#8 })
      (fun t => t.p == 0xA4#8 && memRead t 0x0011#16 == 0xFF#8 && t.owed == 5) = true := by
  decide

/-- VS18: DEC $02FF,X. -/
theorem test_VS18_decabx :
    ran 0xDE#8 0xFF#8 0x02#8 (withBytes [(0x0300#16, 0x80#8)] { start with x := 0x01#8 })
      (fun t => t.p == 0x24#8 && memRead t 0x0300#16 == 0x7F#8 && t.owed == 6) = true := by
  decide

/-- VS19: INX. -/
theorem test_VS19_inximp :
    ran 0xE8#8 0x00#8 0x00#8 { start with x := 0xFF#8 }
      (fun t => t.x == 0x00#8 && t.p == 0x26#8 && t.owed == 1) = true := by
  decide

/-- VS20: INY. -/
theorem test_VS20_inyimp :
    ran 0xC8#8 0x00#8 0x00#8 { start with y := 0x7F#8 }
      (fun t => t.y == 0x80#8 && t.p == 0xA4#8 && t.owed == 1) = true := by
  decide

/-- VS21: DEX. -/
theorem test_VS21_deximp :
    ran 0xCA#8 0x00#8 0x00#8 { start with x := 0x01#8 }
      (fun t => t.x == 0x00#8 && t.p == 0x26#8 && t.owed == 1) = true := by
  decide

/-- VS22: DEY. -/
theorem test_VS22_deyimp :
    ran 0x88#8 0x00#8 0x00#8 { start with y := 0x00#8 }
      (fun t => t.y == 0xFF#8 && t.p == 0xA4#8 && t.owed == 1) = true := by
  decide

/-- VB13: BEQ +$10, page cross. -/
theorem test_VB13_beqrel :
    ran 0xF0#8 0x10#8 0x00#8 { start with pc := 0x80F0#16, p := 0x26#8 }
      (fun t => t.pc == 0x8102#16 && t.owed == 3) = true := by
  decide

/-- VB14: BEQ +$10, page cross. -/
theorem test_VB14_beqrel :
    ran 0xF0#8 0x10#8 0x00#8 { start with pc := 0x80F0#16, p := 0x26#8, cfg := { defaultConfig with beqPagePenalty := false } }
      (fun t => t.pc == 0x8102#16 && t.owed == 2) = true := by
  decide

/-- VB3: BNE -5. -/
theorem test_VB3_bnerel :
    ran 0xD0#8 0xFB#8 0x00#8 { start with pc := 0x8007#16 }
      (fun t => t.pc == 0x8004#16 && t.owed == 2) = true := by
  decide

/-- VB16: BNE +0 at 0x10FE. -/
theorem test_VB16_bnerel :
    ran 0xD0#8 0x00#8 0x00#8 { start with pc := 0x10FE#16, cfg := { defaultConfig with branchPageBase := .next } }
      (fun t => t.pc == 0x1100#16 && t.owed == 2) = true := by
  decide

/-- VB4: BPL +4. -/
theorem test_VB4_bplrel :
    ran 0x10#8 0x04#8 0x00#8 start
      (fun t => t.pc == 0x8006#16 && t.owed == 2) = true := by
  decide

/-- VB5: BMI +4, N=0. -/
theorem test_VB5_bmirel :
    ran 0x30#8 0x04#8 0x00#8 start
      (fun t => t.pc == 0x8002#16 && t.owed == 1) = true := by
  decide

/-- VB6: BVC -4. -/
theorem test_VB6_bvcrel :
    ran 0x50#8 0xFC#8 0x00#8 { start with pc := 0x8010#16 }
      (fun t => t.pc == 0x800E#16 && t.owed == 2) = true := by
  decide

/-- VB7: BVS +$10, page cross. -/
theorem test_VB7_bvsrel :
    ran 0x70#8 0x10#8 0x00#8 { start with pc := 0x80F0#16, p := 0x64#8 }
      (fun t => t.pc == 0x8102#16 && t.owed == 3) = true := by
  decide

/-- VB8: BCC +2, C=1. -/
theorem test_VB8_bccrel :
    ran 0x90#8 0x02#8 0x00#8 { start with p := 0x25#8 }
      (fun t => t.pc == 0x8002#16 && t.owed == 1) = true := by
  decide

/-- VB9: BCS +2, C=1. -/
theorem test_VB9_bcsrel :
    ran 0xB0#8 0x02#8 0x00#8 { start with p := 0x25#8 }
      (fun t => t.pc == 0x8004#16 && t.owed == 2) = true := by
  decide

/-- VB12: BCS -128, page cross. -/
theorem test_VB12_bcsrel :
    ran 0xB0#8 0x80#8 0x00#8 { start with pc := 0x8040#16, p := 0x25#8 }
      (fun t => t.pc == 0x7FC2#16 && t.owed == 3) = true := by
  decide

/-- VC2: JSR $9000. -/
theorem test_VC2_jsrabs :
    ran 0x20#8 0x00#8 0x90#8 { start with pc := 0x8010#16 }
      (fun t => t.sp == 0xFB#8 && t.pc == 0x9000#16 && memRead t 0x01FD#16 == 0x80#8 && memRead t 0x01FC#16 == 0x12#8 && t.owed == 5) = true := by
  decide

/-- VC3: JSR $9000, S=0x00. -/
theorem test_VC3_jsrabs :
    ran 0x20#8 0x00#8 0x90#8 { start with pc := 0x8010#16, sp := 0x00#8 }
      (fun t => t.sp == 0xFE#8 && t.pc == 0x9000#16 && memRead t 0x0100#16 == 0x80#8 && memRead t 0x01FF#16 == 0x12#8 && t.owed == 5) = true := by
  decide

/-- VC4: RTS. -/
theorem test_VC4_rtsimp :
    ran 0x60#8 0x00#8 0x00#8 (withBytes [(0x01FC#16, 0x12#8), (0x01FD#16, 0x80#8)] { start with sp := 0xFB#8 })
      (fun t => t.sp == 0xFD#8 && t.pc == 0x8013#16 && t.owed == 5) = true := by
  decide

/-- VC5: RTS, pulled 0xFFFF. -/
theorem test_VC5_rtsimp :
    ran 0x60#8 0x00#8 0x00#8 (withBytes [(0x01FC#16, 0xFF#8), (0x01FD#16, 0xFF#8)] { start with sp := 0xFB#8 })
      (fun t => t.sp == 0xFD#8 && t.pc == 0x0000#16 && t.owed == 5) = true := by
  decide

/-- VC6: RTI. -/
theorem test_VC6_rtiimp :
    ran 0x40#8 0x00#8 0x00#8 (withBytes [(0x01FB#16, 0xC1#8), (0x01FC#16, 0x34#8), (0x01FD#16, 0x12#8)] { start with sp := 0xFA#8 })
      (fun t => t.sp == 0xFD#8 && t.p == 0xE1#8 && t.pc == 0x1234#16 && t.owed == 5) = true := by
  decide

/-- VC7: RTI, pulled B=1, U=0. -/
theorem test_VC7_rtiimp :
    ran 0x40#8 0x00#8 0x00#8 (withBytes [(0x01FB#16, 0x10#8), (0x01FC#16, 0x00#8), (0x01FD#16, 0x90#8)] { start with sp := 0xFA#8 })
      (fun t => t.sp == 0xFD#8 && t.p == 0x30#8 && t.pc == 0x9000#16 && t.owed == 5) = true := by
  decide

/-- VC8: BRK. -/
theorem test_VC8_brkimp :
    ran 0x00#8 0x00#8 0x00#8 (withBytes [(0xFFFE#16, 0x00#8), (0xFFFF#16, 0x90#8)] { start with pc := 0x8020#16 })
      (fun t => t.sp == 0xFA#8 && t.p == 0x34#8 && t.pc == 0x9000#16 && memRead t 0x01FD#16 == 0x80#8 && memRead t 0x01FC#16 == 0x22#8 && memRead t 0x01FB#16 == 0x34#8 && t.owed == 6) = true := by
  decide

/-- VC9: BRK, BRK_PUSH_OFFSET=1, BRK_SETS_I=true. -/
theorem test_VC9_brkimp :
    ran 0x00#8 0x00#8 0x00#8 (withBytes [(0xFFFE#16, 0x00#8), (0xFFFF#16, 0x90#8)] { start with pc := 0x8020#16, p := 0x20#8, cfg := { defaultConfig with brkPushOffset := 1, brkSetsI := true } })
      (fun t => t.sp == 0xFA#8 && t.p == 0x34#8 && t.pc == 0x9000#16 && memRead t 0x01FD#16 == 0x80#8 && memRead t 0x01FC#16 == 0x21#8 && memRead t 0x01FB#16 == 0x30#8 && t.owed == 6) = true := by
  decide

/-- VT2: PHA at S=0x00. -/
theorem test_VT2_phaimp :
    ran 0x48#8 0x00#8 0x00#8 { start with a := 0x42#8, sp := 0x00#8 }
      (fun t => t.sp == 0xFF#8 && memRead t 0x0100#16 == 0x42#8 && t.owed == 2) = true := by
  decide

/-- VT3: PHP. -/
theorem test_VT3_phpimp :
    ran 0x08#8 0x00#8 0x00#8 start
      (fun t => t.sp == 0xFC#8 && t.p == 0x24#8 && memRead t 0x01FD#16 == 0x34#8 && t.owed == 2) = true := by
  decide

/-- VT4: PLA. -/
theorem test_VT4_plaimp :
    ran 0x68#8 0x00#8 0x00#8 (withBytes [(0x01FD#16, 0x80#8)] { start with sp := 0xFC#8 })
      (fun t => t.a == 0x80#8 && t.sp == 0xFD#8 && t.p == 0xA4#8 && t.owed == 3) = true := by
  decide

/-- VT5: PLA at S=0xFF. -/
theorem test_VT5_plaimp :
    ran 0x68#8 0x00#8 0x00#8 (withBytes [(0x0100#16, 0x00#8)] { start with sp := 0xFF#8 })
      (fun t => t.a == 0x00#8 && t.sp == 0x00#8 && t.p == 0x26#8 && t.owed == 3) = true := by
  decide

/-- VT6: PLP, pulled 0xFF, B=0. -/
theorem test_VT6_plpimp :
    ran 0x28#8 0x00#8 0x00#8 (withBytes [(0x01FD#16, 0xFF#8)] { start with sp := 0xFC#8 })
      (fun t => t.sp == 0xFD#8 && t.p == 0xEF#8 && t.owed == 3) = true := by
  decide

/-- VT7: PLP, pulled 0x00, B=1. -/
theorem test_VT7_plpimp :
    ran 0x28#8 0x00#8 0x00#8 (withBytes [(0x01FD#16, 0x00#8)] { start with sp := 0xFC#8, p := 0x34#8 })
      (fun t => t.sp == 0xFD#8 && t.p == 0x30#8 && t.owed == 3) = true := by
  decide

/-- VT14: STA ($20),Y (no cross). -/
theorem test_VT14_staizy :
    ran 0x91#8 0x20#8 0x00#8 (withBytes [(0x0020#16, 0x00#8), (0x0021#16, 0x03#8)] { start with a := 0x9C#8, y := 0x02#8 })
      (fun t => t.p == 0x24#8 && memRead t 0x0302#16 == 0x9C#8 && t.owed == 5) = true := by
  decide

/-- VT18: STA $10, STORE_SETS_NZ=true. -/
theorem test_VT18_stazp :
    ran 0x85#8 0x10#8 0x00#8 { start with a := 0x00#8, cfg := { defaultConfig with storeSetsNZ := true } }
      (fun t => t.p == 0x26#8 && memRead t 0x0010#16 == 0x00#8 && t.owed == 2) = true := by
  decide

/-- VT19: STX $FF,Y. -/
theorem test_VT19_stxzpy :
    ran 0x96#8 0xFF#8 0x00#8 { start with x := 0x07#8, y := 0x02#8 }
      (fun t => t.p == 0x24#8 && memRead t 0x0001#16 == 0x07#8 && t.owed == 3) = true := by
  decide

/-- VT20: STY $20,X. -/
theorem test_VT20_styzpx :
    ran 0x94#8 0x20#8 0x00#8 { start with x := 0x01#8, y := 0x09#8 }
      (fun t => t.p == 0x24#8 && memRead t 0x0021#16 == 0x09#8 && t.owed == 3) = true := by
  decide

/-- VT21: TAX. -/
theorem test_VT21_taximp :
    ran 0xAA#8 0x00#8 0x00#8 { start with a := 0x80#8 }
      (fun t => t.x == 0x80#8 && t.p == 0xA4#8 && t.owed == 1) = true := by
  decide

/-- VT22: TAY. -/
theorem test_VT22_tayimp :
    ran 0xA8#8 0x00#8 0x00#8 { start with a := 0x00#8 }
      (fun t => t.y == 0x00#8 && t.p == 0x26#8 && t.owed == 1) = true := by
  decide

/-- VT23: TSX. -/
theorem test_VT23_tsximp :
    ran 0xBA#8 0x00#8 0x00#8 start
      (fun t => t.x == 0xFD#8 && t.p == 0xA4#8 && t.owed == 1) = true := by
  decide

/-- VT24: TXA. -/
theorem test_VT24_txaimp :
    ran 0x8A#8 0x00#8 0x00#8 { start with x := 0x7F#8, p := 0xA4#8 }
      (fun t => t.a == 0x7F#8 && t.p == 0x24#8 && t.owed == 1) = true := by
  decide

/-- VT25: TXS. -/
theorem test_VT25_txsimp :
    ran 0x9A#8 0x00#8 0x00#8 { start with x := 0x00#8 }
      (fun t => t.sp == 0x00#8 && t.p == 0x24#8 && t.owed == 1) = true := by
  decide

/-- VT26: TYA. -/
theorem test_VT26_tyaimp :
    ran 0x98#8 0x00#8 0x00#8 { start with y := 0xFE#8 }
      (fun t => t.a == 0xFE#8 && t.p == 0xA4#8 && t.owed == 1) = true := by
  decide

/-- VF1: CLC. -/
theorem test_VF1_clcimp :
    ran 0x18#8 0x00#8 0x00#8 { start with p := 0x25#8 }
      (fun t => t.p == 0x24#8 && t.owed == 1) = true := by
  decide

/-- VF2: CLD. -/
theorem test_VF2_cldimp :
    ran 0xD8#8 0x00#8 0x00#8 { start with p := 0x2C#8 }
      (fun t => t.p == 0x24#8 && t.owed == 1) = true := by
  decide

/-- VF3: CLI. -/
theorem test_VF3_cliimp :
    ran 0x58#8 0x00#8 0x00#8 start
      (fun t => t.p == 0x20#8 && t.owed == 1) = true := by
  decide

/-- VF4: CLV. -/
theorem test_VF4_clvimp :
    ran 0xB8#8 0x00#8 0x00#8 { start with p := 0x64#8 }
      (fun t => t.p == 0x24#8 && t.owed == 1) = true := by
  decide

/-- VF5: SEC. -/
theorem test_VF5_secimp :
    ran 0x38#8 0x00#8 0x00#8 start
      (fun t => t.p == 0x25#8 && t.owed == 1) = true := by
  decide

/-- VF6: SED. -/
theorem test_VF6_sedimp :
    ran 0xF8#8 0x00#8 0x00#8 start
      (fun t => t.p == 0x2C#8 && t.owed == 1) = true := by
  decide

/-- VF7: SEI. -/
theorem test_VF7_seiimp :
    ran 0x78#8 0x00#8 0x00#8 { start with p := 0x20#8 }
      (fun t => t.p == 0x24#8 && t.owed == 1) = true := by
  decide

/-- VF8: NOP. -/
theorem test_VF8_nopimp :
    ran 0xEA#8 0x00#8 0x00#8 { start with a := 0x11#8, x := 0x22#8, y := 0x33#8 }
      (fun t => t.a == 0x11#8 && t.x == 0x22#8 && t.y == 0x33#8 && t.p == 0x24#8 && t.pc == 0x8001#16 && t.owed == 1) = true := by
  decide

/-- VD2: opcode FF (sentinel). -/
theorem test_VD2_sentinel :
    ran 0xFF#8 0x00#8 0x00#8 start
      (fun t => t.run == .halted (.fatalDecode 0x8000#16 0xFF#8) && t.cycles == 7) = true := by
  decide

/-- VD3: AND #$0F, ADMIT_UNLISTED_KINDS=false. -/
theorem test_VD3_andimm :
    ran 0x29#8 0x0F#8 0x00#8 { start with cfg := { defaultConfig with admitUnlistedKinds := false } }
      (fun t => t.run == .halted (.fatalDecode 0x8000#16 0x29#8) && t.cycles == 7) = true := by
  decide
/-! Interrupts, reset, the memory map and the scheduler. -/

/-- VI1: NMI before the first tick; I is already 1. -/
theorem test_VI1_nmi :
    isNext (step (withBytes [(0xFFFB#16, 0x90#8)] { start with nmiPending := true }))
      (fun t => t.pc == 0x9000#16 && t.sp == 0xFA#8 && t.p == 0x24#8 && !t.nmiPending && t.owed == 6 &&
        memRead t 0x01FD#16 == 0x80#8 && memRead t 0x01FC#16 == 0x00#8 && memRead t 0x01FB#16 == 0x24#8) = true := by
  decide

/-- VI2: with I = 1 an asserted IRQ line is not honoured; the NOP runs. -/
theorem test_VI2_irq_masked :
    ran 0xEA#8 0x00#8 0x00#8 { start with irqLine := true } (fun t => t.pc == 0x8001#16 && t.sp == 0xFD#8) = true := by
  decide

/-- VI3: with I = 0 the IRQ is taken before the NOP. -/
theorem test_VI3_irq :
    isNext (step (withBytes [(0xFFFF#16, 0x90#8)] { start with pc := 0x8001#16, p := 0x20#8, irqLine := true }))
      (fun t => t.pc == 0x9000#16 && t.sp == 0xFA#8 && t.p == 0x24#8 && t.irqLine &&
        memRead t 0x01FD#16 == 0x80#8 && memRead t 0x01FC#16 == 0x01#8 && memRead t 0x01FB#16 == 0x20#8) = true := by
  decide

/-- VR1 and VR2: PC comes from the reset vector, S = 0xFD, P = 0x24. -/
theorem test_VR1_reset :
    resetSequence (withBytes [(0xFFFC#16, 0x23#8), (0xFFFD#16, 0xC1#8)] State.beforeReset) =
      withBytes [(0xFFFC#16, 0x23#8), (0xFFFD#16, 0xC1#8)] { State.reset with pc := 0xC123#16 } := by
  decide

/-- State.reset is what the reset sequence leaves with nothing loaded. -/
theorem test_reset : resetSequence State.beforeReset = State.reset := by decide

/-- VMM2: with two banks 0xC000 is PRG offset 0x4000. -/
theorem test_VMM2_two_banks :
    let s := memWrite 0xC000#16 0x77#8 { start with cfg := { defaultConfig with prgBanks := .two } }
    memRead s 0xC000#16 = 0x77#8 ∧ memRead s 0x8000#16 = 0x00#8 := by
  decide

/-- VMM3: with one bank a write of 0x8000 is read back at 0xC000. -/
theorem test_VMM3_one_bank : memRead (memWrite 0x8000#16 0x01#8 start) 0xC000#16 = 0x01#8 := by decide

/-- VK1: the tick after a NOP is idle. -/
theorem test_VK1_idle :
    isNext (step { start with owed := 1, cycles := 8 }) (fun t => t == { start with owed := 0, cycles := 9 }) = true := by
  decide

/-- VK2: a stopped core does nothing on a tick. -/
theorem test_VK2_stopped :
    isNext (step { start with owed := 5, run := .stopped })
      (fun t => t == { start with owed := 5, run := .stopped }) = true := by
  decide

/-- VK3: a tick in a halted state is the fault. -/
theorem test_VK3_halted :
    step { start with run := .halted (.fatalDecode 0x8001#16 0x02#8) } = .fault (.fatalDecode 0x8001#16 0x02#8) := by
  rfl

/-- The first step after reset runs the instruction that withFetchWord places. -/
theorem test_withFetchWord :
    isNext (step (State.reset.withFetchWord 16 0x05A9)) (fun t => t.a == 0x05#8 && t.pc == 0x0002#16) = true := by
  decide

/-- An image that is not one or two banks is refused. -/
theorem test_load_size : load [0xEA#8] State.beforeReset = .refused (.badImage 1) := by rfl

/-! Witnesses: concrete states and operands that meet the hypotheses of the obligations, at boundary values where a clause
has a range. -/

/-- DecodeEncodeAgree. -/
theorem witness_DecodeEncodeAgree :
    (Instr.ldaAbs 0xFFFF#16).wf true = true ∧ (Instr.sentinel 0xFF#8).wf true = true ∧ (Instr.ldaZp 0xFF#8).wf false = true ∧
    (Instr.sentinel 0x29#8).wf false = true := by
  decide

/-- EncodeDecodeAgree. -/
theorem witness_EncodeDecodeAgree :
    decode true [0xAD#8, 0x34#8, 0x12#8, 0xEA#8] = .ok (.ldaAbs 0x1234#16, [0xEA#8]) ∧
    decode false [0x29#8] = .ok (.sentinel 0x29#8, []) :=
  ⟨rfl, rfl⟩

/-- UndefinedOpcodesHalt. -/
theorem witness_UndefinedOpcodesHalt : 0xFF#8 ∈ sentinelOpcodes ∧ 0xEA#8 ∉ sentinelOpcodes := by decide

/-- UnlistedKindsParameter. -/
theorem witness_UnlistedKindsParameter : 0x29#8 ∈ unlistedOpcodes ∧ 0xA9#8 ∉ unlistedOpcodes := by decide

/-- InstructionLengths, each clause. -/
theorem witness_InstructionLengths :
    (Instr.aslAcc.kind ≠ .noInstruction ∧ Instr.aslAcc.mode ∈ ([.imp, .acc] : List Mode)) ∧
    ((Instr.ldaIzy 0xFF#8).kind ≠ .noInstruction ∧
      (Instr.ldaIzy 0xFF#8).mode ∈ ([.imm, .rel, .zp, .zpx, .zpy, .izx, .izy] : List Mode)) ∧
    ((Instr.jmpInd 0xFFFF#16).kind ≠ .noInstruction ∧
      (Instr.jmpInd 0xFFFF#16).mode ∈ ([.abs, .abx, .aby, .ind] : List Mode)) := by
  decide

/-- A state at a boundary with NOP at PC. -/
def atNop : State := placeAtPc 0xEA#8 0x00#8 0x00#8 start

/-- A state at a boundary with the sentinel opcode 0x02 at PC. -/
def atSentinel : State := placeAtPc 0x02#8 0x00#8 0x00#8 start

/-- StepRunsDecodedInstruction, a core that goes on; the IRQ line low, or high with I = 1. -/
theorem witness_StepRunsDecodedInstruction :
    atNop.run = .running ∧ atNop.owed = 0 ∧ atNop.nmiPending = false ∧ atNop.irqLine = false ∧
    atNop.interruptDisable = true ∧
    decode atNop.cfg.admitUnlistedKinds
      [memRead atNop atNop.pc, memRead atNop (atNop.pc + 1), memRead atNop (atNop.pc + 2)] = .ok (.nop, [0x00#8, 0x00#8]) ∧
    ∃ t, exec .nop atNop = .next t ∧ t.run = .running :=
  ⟨rfl, rfl, rfl, rfl, rfl, rfl, _, rfl, rfl⟩

/-- StepRunsDecodedInstruction, a core that halts. -/
theorem witness_StepRunsDecodedInstruction_halts :
    decode atSentinel.cfg.admitUnlistedKinds
      [memRead atSentinel atSentinel.pc, memRead atSentinel (atSentinel.pc + 1), memRead atSentinel (atSentinel.pc + 2)] =
        .ok (.sentinel 0x02#8, [0x00#8, 0x00#8]) ∧
    ∃ t, exec (.sentinel 0x02#8) atSentinel = .next t ∧ t.run ≠ .running :=
  ⟨rfl, _, rfl, by decide⟩

/-- RamIsMirrored, both ends of each range. -/
theorem witness_RamIsMirrored :
    (0x0000#16).toNat < 0x2000 ∧ (0x1FFF#16).toNat < 0x2000 ∧ 0x2000 ≤ (0x2000#16).toNat ∧ 0x2000 ≤ (0xFFFF#16).toNat := by
  decide

/-- PrgRomMapsAndWrites, both ends of each range, one bank and two. -/
theorem witness_PrgRomMapsAndWrites :
    0x8000 ≤ (0x8000#16).toNat ∧ 0x8000 ≤ (0xFFFF#16).toNat ∧ (0x0000#16).toNat < 0x8000 ∧ (0x7FFF#16).toNat < 0x8000 ∧
    (0x8000 - 0x8000) % 0x4000 = (0xC000 - 0x8000) % 0x4000 ∧ (0xBFFF - 0x8000) % 0x4000 = (0xFFFF - 0x8000) % 0x4000 ∧
    start.cfg.prgBanks = .one ∧ { start with cfg := { defaultConfig with prgBanks := .two } }.cfg.prgBanks = .two := by
  decide

/-- UnmappedReadsZeroDropsWrites, both ends of the range. -/
theorem witness_UnmappedReadsZeroDropsWrites :
    (0x2000 ≤ (0x2000#16).toNat ∧ (0x2000#16).toNat < 0x8000) ∧ (0x2000 ≤ (0x7FFF#16).toNat ∧ (0x7FFF#16).toNat < 0x8000) := by
  decide

/-- WordReadsLittleEndian: the wrap at 0xFFFF. -/
theorem witness_WordReadsLittleEndian : ∃ a : Word, a = 0xFFFF#16 := ⟨_, rfl⟩

/-- PushesWrapAfter256: 256 bytes, and an address outside the stack page. -/
theorem witness_PushesWrapAfter256 :
    (List.replicate 256 0x00#8).length = 256 ∧
    ∀ sp : Byte, sameByte start.cfg.prgBanks (BitVec.ofNat 16 (0x0100 + sp.toNat)) 0x0200#16 = false := by
  refine ⟨List.length_replicate, ?_⟩
  decide

/-- AdcResult. -/
theorem witness_AdcResult : (Instr.adcIzy 0xFF#8).kind = .adc := rfl

/-- OverflowIsSignedOverflow: both kinds, with no overflow. -/
theorem witness_OverflowIsSignedOverflow :
    (Instr.adcImm 0x01#8).kind = .adc ∧ (∃ t, exec (.adcImm 0x01#8) start = .next t ∧ t.overflow = false) ∧
    (Instr.sbcImm 0x01#8).kind = .sbc ∧ (∃ t, exec (.sbcImm 0x01#8) start = .next t ∧ t.overflow = false) :=
  ⟨rfl, ⟨_, rfl, by decide⟩, rfl, ⟨_, rfl, by decide⟩⟩

/-- SbcResult. -/
theorem witness_SbcResult : (Instr.sbcAbx 0xFFFF#16).kind = .sbc := rfl

/-- LogicResults. -/
theorem witness_LogicResults :
    (Instr.andImm 0x0F#8).kind = .and ∧ (Instr.oraZpx 0xFF#8).kind = .ora ∧ (Instr.eorAby 0xFFFF#16).kind = .eor :=
  ⟨rfl, rfl, rfl⟩

/-- BitResult. -/
theorem witness_BitResult : (Instr.bitAbs 0xFFFF#16).kind = .bit := rfl

/-- CompareResults. -/
theorem witness_CompareResults :
    (Instr.cmpIzx 0xFF#8).kind = .cmp ∧ (Instr.cpxImm 0x00#8).kind = .cpx ∧ (Instr.cpyZp 0xFF#8).kind = .cpy :=
  ⟨rfl, rfl, rfl⟩

/-- ShiftResults. -/
theorem witness_ShiftResults : Instr.aslAcc.kind = .asl ∧ (Instr.lsrAbx 0xFFFF#16).kind = .lsr := ⟨rfl, rfl⟩

/-- RotateResults. -/
theorem witness_RotateResults : (Instr.rolZp 0x00#8).kind = .rol ∧ Instr.rorAcc.kind = .ror := ⟨rfl, rfl⟩

/-- IncDecResults. -/
theorem witness_IncDecResults : (Instr.incZpx 0xFF#8).kind = .inc ∧ (Instr.decAbx 0x02FF#16).kind = .dec := ⟨rfl, rfl⟩

/-- LoadResults. -/
theorem witness_LoadResults :
    (Instr.ldaImm 0x05#8).kind = .lda ∧ (Instr.ldxZpy 0xFF#8).kind = .ldx ∧ (Instr.ldyAbx 0xFFFF#16).kind = .ldy :=
  ⟨rfl, rfl, rfl⟩

/-- StoreResults, both settings of STORE_SETS_NZ. -/
theorem witness_StoreResults :
    (Instr.staIzy 0x20#8).kind = .sta ∧ (Instr.stxZpy 0xFF#8).kind = .stx ∧ (Instr.styAbs 0x0800#16).kind = .sty ∧
    start.cfg.storeSetsNZ = false ∧ { start with cfg := { defaultConfig with storeSetsNZ := true } }.cfg.storeSetsNZ = true :=
  ⟨rfl, rfl, rfl, rfl, rfl⟩

/-- BranchResults: BNE from 0x10FE, taken, with the two page references; BEQ not taken (VB15, VB16, VB2). -/
theorem witness_BranchResults :
    let s := { start with pc := 0x10FE#16 }
    let target := BitVec.ofInt 16 ((s.pc.toNat : Int) + 2 + (0x00#8).toInt)
    ((!s.zero) = true ∧ s.zero = false) ∧ target.toNat / 256 ≠ s.pc.toNat / 256 ∧
    ¬ target.toNat / 256 ≠ (s.pc + 2).toNat / 256 ∧
    s.cfg.branchPageBase = .opcode ∧ s.cfg.beqPagePenalty = true ∧ (Instr.bne 0x00#8).kind ≠ .beq := by
  decide

/-- BranchResults: each condition both ways, over P = 0x00 and P = 0xFF. -/
theorem witness_BranchResults_conditions :
    let s := { start with p := 0x00#8 }
    let t := { start with p := 0xFF#8 }
    (!s.negative && !s.overflow && !s.carry && !s.zero) = true ∧ (t.negative && t.overflow && t.carry && t.zero) = true := by
  decide

/-- EffectiveAddresses: both settings of JMP_IND_PAGE_WRAP, and an operand that is read from memory. -/
theorem witness_EffectiveAddresses :
    (MemOperand.zp 0xFF#8).mode ≠ .imm ∧ (MemOperand.zp 0xFF#8).mode ≠ .rel ∧
    start.cfg.jmpIndPageWrap = true ∧
    { start with cfg := { defaultConfig with jmpIndPageWrap := false } }.cfg.jmpIndPageWrap = false := by
  decide

/-- InterruptEntryEffect: an NMI, and an IRQ. -/
theorem witness_InterruptEntryEffect :
    (let s := { start with nmiPending := true }
     s.run = .running ∧ s.owed = 0 ∧ s.nmiPending = true) ∧
    (let s := { start with irqLine := true, p := 0x20#8 }
     s.run = .running ∧ s.owed = 0 ∧ s.nmiPending = false ∧ s.irqLine = true ∧ s.interruptDisable = false) := by
  decide

/-- FatalDecodeHaltsTheCore. -/
theorem witness_FatalDecodeHaltsTheCore :
    (AtBoundary atSentinel ∧ fetch atSentinel = .sentinel 0x02#8) ∧
    { start with run := .halted (.fatalDecode 0x8000#16 0x02#8) }.run = .halted (.fatalDecode 0x8000#16 0x02#8) :=
  ⟨⟨⟨rfl, rfl, rfl⟩, rfl⟩, rfl⟩

/-- OnlyHaltedStatesFail. -/
theorem witness_OnlyHaltedStatesFail : ∀ f, start.run ≠ .halted f := fun f h => by cases h

/-- TickByCases, each clause. -/
theorem witness_TickByCases :
    (let s := { start with owed := 1 }; s.run = .running ∧ 0 < s.owed) ∧
    (let s := { start with nmiPending := true }; s.run = .running ∧ s.owed = 0 ∧ s.nmiPending = true) ∧
    (let s := { start with irqLine := true, p := 0x20#8 }
     s.run = .running ∧ s.owed = 0 ∧ s.nmiPending = false ∧ s.irqLine = true ∧ s.interruptDisable = false) ∧
    (start.run = .running ∧ start.owed = 0 ∧ interruptDue start = false) ∧
    { start with run := .stopped }.run = .stopped ∧ State.beforeReset.run = .reset ∧
    { start with run := .halted (.fatalDecode 0x8000#16 0x02#8) }.run = .halted (.fatalDecode 0x8000#16 0x02#8) := by
  decide

/-- CostIsTicks: NOP, its first tick and its last. -/
theorem witness_CostIsTicks :
    ∃ b, atNop.run = .running ∧ atNop.owed = 0 ∧ boundary atNop = .next b ∧ b.run = .running ∧ 1 ≤ 1 ∧ 1 ≤ b.owed ∧
      1 ≤ 2 ∧ 2 ≤ b.owed :=
  ⟨_, rfl, rfl, rfl, rfl, by decide, by decide, by decide, by decide⟩

set_option maxRecDepth 100000 in
/-- ResetSequenceEffect: the default parameters give no cost of 0. -/
theorem witness_ResetSequenceEffect : State.beforeReset.run = .reset ∧ costsAdmitted State.beforeReset.cfg = true := by
  decide

/-- LoadPlacesImage: one bank, and two. -/
theorem witness_LoadPlacesImage :
    State.beforeReset.run = .reset ∧ (List.replicate 0x4000 0xEA#8).length = 0x4000 ∧
    (List.replicate 0x8000 0xEA#8).length = 0x8000 :=
  ⟨rfl, List.length_replicate, List.length_replicate⟩

/-- StepKeepsInvariant. -/
theorem witness_StepKeepsInvariant : MachineInv atNop ∧ ∃ t, step atNop = .next t := ⟨⟨rfl, rfl, fun _ => rfl⟩, _, rfl⟩

/-- MovesKeepInvariant: a stop, a raise, a line change and a tick. -/
theorem witness_MovesKeepInvariant :
    MachineInv atNop ∧ (∃ t, move .stop atNop = .next t) ∧ (∃ t, move .nmiRaise atNop = .next t) ∧
    (∃ t, move (.irqLine true) atNop = .next t) ∧ ∃ t, move .tick atNop = .next t :=
  ⟨⟨rfl, rfl, fun _ => rfl⟩, ⟨_, rfl⟩, ⟨_, rfl⟩, ⟨_, rfl⟩, ⟨_, rfl⟩⟩

/-- An image of n + 7 bytes that starts with `JMP $8000` and ends with the reset vector 0x8000 and an IRQ/BRK vector. -/
def jumpImage (n : Nat) : List Byte :=
  [0x4C#8, 0x00#8, 0x80#8] ++ List.replicate n 0x00#8 ++ [0x00#8, 0x80#8, 0x00#8, 0x90#8]

theorem jumpImage_length (n : Nat) : (jumpImage n).length = n + 7 := by
  simp only [jumpImage, List.length_append, List.length_replicate, List.length_cons, List.length_nil]
  omega

theorem jumpImage_vector (n : Nat) :
    (jumpImage n).getD (n + 3) 0x00#8 = 0x00#8 ∧ (jumpImage n).getD (n + 4) 0x00#8 = 0x80#8 := by
  constructor <;>
    (unfold jumpImage
     rw [List.getD_append_right _ _ _ _ (by simp)]
     simp only [List.length_append, List.length_replicate, List.length_cons, List.length_nil])
  · rw [show n + 3 - (0 + 1 + 1 + 1 + n) = 0 by omega]; rfl
  · rw [show n + 4 - (0 + 1 + 1 + 1 + n) = 1 by omega]; rfl

/-- The state before reset with a one-bank image loaded. -/
def loadedWith (prg : List Byte) : State :=
  { State.beforeReset with
    mem := storeImage prg 0x8000 (ramOnly State.beforeReset.mem), cfg := { State.beforeReset.cfg with prgBanks := .one } }

theorem load_one_bank {prg : List Byte} (h : prg.length = 0x4000) :
    move (.load prg) State.beforeReset = .next (loadedWith prg) :=
  load_of_reset rfl (by rw [h]; rfl)

set_option maxRecDepth 100000 in
theorem costsAdmitted_default : costsAdmitted defaultConfig = true := by decide

theorem reset_one_bank (prg : List Byte) : move .reset (loadedWith prg) = .next (resetSequence (loadedWith prg)) :=
  powerOn_of_reset rfl costsAdmitted_default

theorem loadedWith_inv {prg : List Byte} (h : prg.length = 0x4000) : MachineInv (loadedWith prg) := by
  have kept := storeImage_keeps .one prg 0x8000 (ramOnly State.beforeReset.mem) rfl rfl (by decide) (by rw [h]; decide)
  exact ⟨kept.1, kept.2, fun hr => absurd rfl hr⟩

/-- After the load and the reset of an image PC is the image's vector. -/
theorem reset_pc {prg : List Byte} (h : prg.length = 0x4000) :
    (resetSequence (loadedWith prg)).pc = cat (prg.getD 0x3FFD 0x00#8) (prg.getD 0x3FFC 0x00#8) := by
  have byte : ∀ k, k < 0x4000 → Memory.get (loadedWith prg).mem (0x8000 + k) = prg.getD k 0x00#8 := by
    intro k hk
    show (storeImage prg 0x8000 _).get _ = _
    rw [get_storeImage, h, if_pos ⟨by omega, by omega⟩, Nat.add_sub_cancel_left]
  exact congrArg₂ cat (byte 0x3FFD (by omega)) (byte 0x3FFC (by omega))

/-- MovesKeepInvariant: the load of an image before reset, and the reset sequence after it. -/
theorem witness_MovesKeepInvariant_load_reset :
    MachineInv State.beforeReset ∧ (jumpImage 0x3FF9).length = 0x4000 ∧
    move (.load (jumpImage 0x3FF9)) State.beforeReset = .next (loadedWith (jumpImage 0x3FF9)) ∧
    MachineInv (loadedWith (jumpImage 0x3FF9)) ∧
    move .reset (loadedWith (jumpImage 0x3FF9)) = .next (resetSequence (loadedWith (jumpImage 0x3FF9))) ∧
    (jumpImage 0x7FF9).length = 0x8000 :=
  ⟨⟨rfl, rfl, fun h => absurd rfl h⟩, jumpImage_length _, load_one_bank (jumpImage_length _),
    loadedWith_inv (jumpImage_length _), reset_one_bank _, jumpImage_length _⟩

/-- ArchitectureIndependentOfTiming: other counters, another entry cost, no BEQ penalty. -/
theorem witness_ArchitectureIndependentOfTiming :
    AgreesButTiming start
      { start with cycles := 9, cfg := { defaultConfig with intEntryCycles := 5, beqPagePenalty := false } } :=
  rfl

/-- ControlStateInvisible: an instruction that leaves `run`, and one that does not. -/
theorem witness_ControlStateInvisible :
    (∃ t, exec .nop start = .next t) ∧ ∃ t, exec (.sentinel 0x02#8) start = .next t ∧ t.run ≠ start.run :=
  ⟨⟨_, rfl⟩, _, rfl, by decide⟩

/-- FlagWriters, each clause. -/
theorem witness_FlagWriters :
    (∃ t, exec .sec start = .next t ∧ t.carry ≠ start.carry) ∧
    (∃ t, exec .cli start = .next t ∧ t.interruptDisable ≠ start.interruptDisable) ∧
    (∃ t, exec .sed start = .next t ∧ t.decimal ≠ start.decimal) ∧
    (∃ t, exec .brk start = .next t ∧ t.brk ≠ start.brk) ∧
    (∃ t, exec (.adcImm 0x7F#8) { start with a := 0x01#8 } = .next t ∧ t.overflow ≠ start.overflow) ∧ start.unused = true :=
  ⟨⟨_, rfl, by decide⟩, ⟨_, rfl, by decide⟩, ⟨_, rfl, by decide⟩, ⟨_, rfl, by decide⟩, ⟨_, rfl, by decide⟩, by decide⟩

/-- RegisterAndMemoryWriters, each clause. -/
theorem witness_RegisterAndMemoryWriters :
    (∃ t, exec (.ldaImm 0x05#8) start = .next t ∧ t.a ≠ start.a) ∧
    (∃ t, exec .inx start = .next t ∧ t.x ≠ start.x) ∧ (∃ t, exec .iny start = .next t ∧ t.y ≠ start.y) ∧
    (∃ t, exec .pha start = .next t ∧ t.sp ≠ start.sp) ∧
    Instr.aslAcc.kind ∉ ([.sta, .stx, .sty, .inc, .dec, .pha, .php, .jsr, .brk] : List Kind) ∧ Instr.aslAcc.mode = .acc ∧
    Instr.nop.kind ∉ ([.asl, .lsr, .rol, .ror] : List Kind) :=
  ⟨⟨_, rfl, by decide⟩, ⟨_, rfl, by decide⟩, ⟨_, rfl, by decide⟩, ⟨_, rfl, by decide⟩, by decide, rfl, by decide⟩

/-- HostInputs: each run state. -/
theorem witness_HostInputs :
    start.run = .running ∧ { start with run := .stopped }.run = .stopped ∧ State.beforeReset.run = .reset ∧
    ∃ f, { start with run := .halted (.fatalDecode 0x8000#16 0x02#8) }.run = .halted f :=
  ⟨rfl, rfl, rfl, _, rfl⟩

/-- TraceRecordIsBoundaryState: an instruction with an address, one without, and a state not at a boundary. -/
theorem witness_TraceRecordIsBoundaryState :
    (AtBoundary (placeAtPc 0xAD#8 0x34#8 0x12#8 start) ∧
      (fetch (placeAtPc 0xAD#8 0x34#8 0x12#8 start)).operand = .mem (.abs 0x1234#16)) ∧
    (AtBoundary atNop ∧ (fetch atNop).kind ≠ .noInstruction ∧ (fetch atNop).mode ∈ ([.imp, .acc] : List Mode)) ∧
    ¬ AtBoundary { start with owed := 1 } :=
  ⟨⟨⟨rfl, rfl, rfl⟩, rfl⟩, ⟨⟨rfl, rfl, rfl⟩, by decide, by decide⟩, fun h => absurd h.2.1 (by decide)⟩

/-- The state at the end of program P1: JMP $8004 at 0x8004. -/
def atSelfJump : State :=
  withBytes [(0x8004#16, 0x4C#8), (0x8005#16, 0x04#8), (0x8006#16, 0x80#8)] { start with pc := 0x8004#16 }

/-- SelfJumpStaysAtEnd: the self-jump costs 3. -/
theorem witness_SelfJumpStaysAtEnd :
    EndsAt 0x8004#16 atSelfJump ∧ HoldsSelfJump 0x8004#16 atSelfJump ∧
    3 = baseCost atSelfJump.cfg.cycleTable .jmp .abs ∧ 0 < 3 :=
  ⟨⟨⟨rfl, rfl, rfl⟩, rfl⟩, ⟨rfl, rfl, rfl⟩, by decide, by decide⟩

/-- SelfJumpStaysAtEnd: a run that ends at a, one that is stopped there, and one that halts. -/
theorem witness_SelfJumpStaysAtEnd_ends :
    runToEnd (some 0x8004#16) [.tick, .tick] atSelfJump = .endAt atSelfJump ∧
    FirstEndAt 0x8004#16 [.tick, .tick] atSelfJump atSelfJump ∧
    runToEnd (some 0x8004#16) [.stop, .tick] atSelfJump = .stopped { atSelfJump with run := .stopped } ∧
    runToEnd none [.tick] atSentinel =
      .halted (.fatalDecode 0x8000#16 0x02#8) { atSentinel with run := .halted (.fatalDecode 0x8000#16 0x02#8) } := by
  refine ⟨rfl, ⟨[], [.tick], rfl, rfl, ⟨⟨rfl, rfl, rfl⟩, rfl⟩, ?_⟩, rfl, rfl⟩
  intro earlier later u h
  simp at h

/-- R315, R268: an NMI raised before the tick is taken at that boundary, so the run does not end there. -/
theorem test_end_not_at_interrupt :
    isEndBoundary (some 0x8004#16) atSelfJump = true ∧
    isEndBoundary (some 0x8004#16) { atSelfJump with nmiPending := true } = false ∧
    runToEnd (some 0x8004#16) [.nmiRaise, .tick] atSelfJump ≠ .endAt { atSelfJump with nmiPending := true } := by
  decide

/-- An image that starts with `JMP $8000` shows the self-jump at 0x8000, and at the mirror 0xC000 no jump to itself. -/
theorem imageHoldsSelfJump_jumpImage :
    imageHoldsSelfJump (jumpImage 0x3FF9) 0x8000#16 = true ∧ imageHoldsSelfJump (jumpImage 0x3FF9) 0xC000#16 = false := by
  simp only [imageHoldsSelfJump, imageByte, jumpImage_length]
  exact ⟨rfl, rfl⟩

/-- A program whose image holds the self-jump at its reset vector ends there. -/
theorem runProgram_ends {prg : List Byte} {a : Word} (h : prg.length = 0x4000) (hj : imageHoldsSelfJump prg a = true)
    (hv : cat (prg.getD 0x3FFD 0x00#8) (prg.getD 0x3FFC 0x00#8) = a) :
    runProgram prg (some a) [.tick] State.beforeReset = .endAt (resetSequence (loadedWith prg)) := by
  have last : isEndBoundary (some a) (resetSequence (loadedWith prg)) = true :=
    (isEndBoundary_some _ _).2 ⟨⟨rfl, rfl, rfl⟩, (reset_pc h).trans hv⟩
  unfold runProgram
  rw [filter_imageHoldsSelfJump, if_pos hj, runToEnd_cons rfl, if_neg (fun h => by cases h.1), load_one_bank h]
  show runToEnd _ [.reset, .tick] (loadedWith prg) = _
  rw [runToEnd_cons rfl, if_neg (fun h => by cases h.1), reset_one_bank]
  show runToEnd _ [.tick] (resetSequence (loadedWith prg)) = _
  rw [runToEnd_cons rfl, if_pos ⟨rfl, last⟩]

/-- SelfJumpStaysAtEnd: the program `JMP $8000` ends at its first instruction. -/
theorem witness_SelfJumpStaysAtEnd_program :
    runProgram (jumpImage 0x3FF9) (some 0x8000#16) [.tick] State.beforeReset =
      .endAt (resetSequence (loadedWith (jumpImage 0x3FF9))) := by
  refine runProgram_ends (jumpImage_length _) imageHoldsSelfJump_jumpImage.1 ?_
  have v := jumpImage_vector 0x3FF9
  exact (congrArg₂ cat v.2 v.1).trans rfl

end Sys2Proof.Tests
end

section
/-! PROOF. What `exec` can do, said once: every instruction is one of a few shared operations, with its effect, and it
answers a next state whatever the state. -/

namespace Sys2Proof.Machine

/-- What a read-class kind does with its operand byte (42_alu.md R151 to R159, 45_stack_transfer.md R224 to R226). -/
inductive ReadEffect : Kind → (Byte → State → State) → Prop
  | adc : ReadEffect .adc addWithCarry
  | sbc : ReadEffect .sbc (fun v => addWithCarry (v ^^^ 0xFF#8))
  | and : ReadEffect .and (fun v s => setA (s.a &&& v) s)
  | ora : ReadEffect .ora (fun v s => setA (s.a ||| v) s)
  | eor : ReadEffect .eor (fun v s => setA (s.a ^^^ v) s)
  | bit : ReadEffect .bit bitFlags
  | cmp : ReadEffect .cmp (fun v s => compareFlags s.a v s)
  | cpx : ReadEffect .cpx (fun v s => compareFlags s.x v s)
  | cpy : ReadEffect .cpy (fun v s => compareFlags s.y v s)
  | lda : ReadEffect .lda setA
  | ldx : ReadEffect .ldx setX
  | ldy : ReadEffect .ldy setY

/-- What a kind of mode Implicit that ends in `retire` does (43 R179 to R182, 45 R220 to R236, 46 R250 to R257). -/
inductive ImpliedEffect : Kind → (State → State) → Prop
  | inx : ImpliedEffect .inx (fun s => setX (s.x + 1) s)
  | iny : ImpliedEffect .iny (fun s => setY (s.y + 1) s)
  | dex : ImpliedEffect .dex (fun s => setX (s.x - 1) s)
  | dey : ImpliedEffect .dey (fun s => setY (s.y - 1) s)
  | pha : ImpliedEffect .pha (fun s => push8 s.a s)
  | php : ImpliedEffect .php (fun s => push8 (s.p ||| 0x30#8) s)
  | pla : ImpliedEffect .pla pullA
  | plp : ImpliedEffect .plp pullP
  | tax : ImpliedEffect .tax (fun s => setX s.a s)
  | tay : ImpliedEffect .tay (fun s => setY s.a s)
  | tsx : ImpliedEffect .tsx (fun s => setX s.sp s)
  | txa : ImpliedEffect .txa (fun s => setA s.x s)
  | txs : ImpliedEffect .txs (fun s => { s with sp := s.x })
  | tya : ImpliedEffect .tya (fun s => setA s.y s)
  | clc : ImpliedEffect .clc (setC false)
  | cld : ImpliedEffect .cld (setD false)
  | cli : ImpliedEffect .cli (setI false)
  | clv : ImpliedEffect .clv (setV false)
  | sec : ImpliedEffect .sec (setC true)
  | sed : ImpliedEffect .sed (setD true)
  | sei : ImpliedEffect .sei (setI true)
  | nop : ImpliedEffect .nop id

/-- The shift or rotate of a kind (43_shift_incdec.md R171 to R174). -/
inductive ShiftEffect : Kind → ShiftOp → Prop
  | asl : ShiftEffect .asl aslOp
  | lsr : ShiftEffect .lsr lsrOp
  | rol : ShiftEffect .rol rolOp
  | ror : ShiftEffect .ror rorOp

/-- When a kind of branch is taken (44_control.md R191 to R198). -/
inductive BranchTaken : Kind → (State → Bool) → Prop
  | bpl : BranchTaken .bpl (fun s => !s.negative)
  | bmi : BranchTaken .bmi State.negative
  | bvc : BranchTaken .bvc (fun s => !s.overflow)
  | bvs : BranchTaken .bvs State.overflow
  | bcc : BranchTaken .bcc (fun s => !s.carry)
  | bcs : BranchTaken .bcs State.carry
  | bne : BranchTaken .bne (fun s => !s.zero)
  | beq : BranchTaken .beq State.zero

/-- The function on states that an instruction of a kind, with an operand, is. -/
inductive Meaning : Kind → Operand → (State → State) → Prop
  | read {k effect} (m) : ReadEffect k effect → Meaning k (.mem m) (readInstr k effect m)
  | implied {k effect} : ImpliedEffect k effect → Meaning k .implied (impliedInstr k effect)
  | shiftAcc {k op} : ShiftEffect k op → Meaning k .accumulator (shiftAcc k op)
  | shiftMem {k op} (m) : ShiftEffect k op → Meaning k (.mem m) (shiftMem k op m)
  | inc (m) : Meaning .inc (.mem m) (inc m)
  | dec (m) : Meaning .dec (.mem m) (dec m)
  | sta (m) : Meaning .sta (.mem m) (sta m)
  | stx (m) : Meaning .stx (.mem m) (stx m)
  | sty (m) : Meaning .sty (.mem m) (sty m)
  | branch {k taken} (off) : BranchTaken k taken → Meaning k (.mem (.rel off)) (fun s => branch k (taken s) off s)
  | jmp (m) : Meaning .jmp (.mem m) (jmp m)
  | jsr (addr) : Meaning .jsr (.mem (.abs addr)) (jumpSubroutine addr)
  | rts : Meaning .rts .implied returnSubroutine
  | rti : Meaning .rti .implied (fun s => charge .rti .implied 0 (leaveException s))
  | brk : Meaning .brk .implied softwareBreak
  | sentinel (opcode) : Meaning .noInstruction .noOperand (haltFatal opcode)

/-- Every instruction answers a next state, by the meaning of its kind and operand. -/
theorem exec_meaning (i : Instr) : ∃ f, (∀ s, exec i s = .next (f s)) ∧ Meaning i.kind i.operand f :=
  match i with
  | .adcImm _ | .adcZp _ | .adcZpx _ | .adcAbs _ | .adcAbx _ | .adcAby _ | .adcIzx _ | .adcIzy _ =>
    ⟨_, fun _ => rfl, .read _ .adc⟩
  | .sbcImm _ | .sbcZp _ | .sbcZpx _ | .sbcAbs _ | .sbcAbx _ | .sbcAby _ | .sbcIzx _ | .sbcIzy _ =>
    ⟨_, fun _ => rfl, .read _ .sbc⟩
  | .andImm _ | .andZp _ | .andZpx _ | .andAbs _ | .andAbx _ | .andAby _ | .andIzx _ | .andIzy _ =>
    ⟨_, fun _ => rfl, .read _ .and⟩
  | .oraImm _ | .oraZp _ | .oraZpx _ | .oraAbs _ | .oraAbx _ | .oraAby _ | .oraIzx _ | .oraIzy _ =>
    ⟨_, fun _ => rfl, .read _ .ora⟩
  | .eorImm _ | .eorZp _ | .eorZpx _ | .eorAbs _ | .eorAbx _ | .eorAby _ | .eorIzx _ | .eorIzy _ =>
    ⟨_, fun _ => rfl, .read _ .eor⟩
  | .bitZp _ | .bitAbs _ => ⟨_, fun _ => rfl, .read _ .bit⟩
  | .cmpImm _ | .cmpZp _ | .cmpZpx _ | .cmpAbs _ | .cmpAbx _ | .cmpAby _ | .cmpIzx _ | .cmpIzy _ =>
    ⟨_, fun _ => rfl, .read _ .cmp⟩
  | .cpxImm _ | .cpxZp _ | .cpxAbs _ => ⟨_, fun _ => rfl, .read _ .cpx⟩
  | .cpyImm _ | .cpyZp _ | .cpyAbs _ => ⟨_, fun _ => rfl, .read _ .cpy⟩
  | .ldaImm _ | .ldaZp _ | .ldaZpx _ | .ldaAbs _ | .ldaAbx _ | .ldaAby _ | .ldaIzx _ | .ldaIzy _ =>
    ⟨_, fun _ => rfl, .read _ .lda⟩
  | .ldxImm _ | .ldxZp _ | .ldxZpy _ | .ldxAbs _ | .ldxAby _ => ⟨_, fun _ => rfl, .read _ .ldx⟩
  | .ldyImm _ | .ldyZp _ | .ldyZpx _ | .ldyAbs _ | .ldyAbx _ => ⟨_, fun _ => rfl, .read _ .ldy⟩
  | .aslAcc => ⟨_, fun _ => rfl, .shiftAcc .asl⟩
  | .lsrAcc => ⟨_, fun _ => rfl, .shiftAcc .lsr⟩
  | .rolAcc => ⟨_, fun _ => rfl, .shiftAcc .rol⟩
  | .rorAcc => ⟨_, fun _ => rfl, .shiftAcc .ror⟩
  | .aslZp _ | .aslZpx _ | .aslAbs _ | .aslAbx _ => ⟨_, fun _ => rfl, .shiftMem _ .asl⟩
  | .lsrZp _ | .lsrZpx _ | .lsrAbs _ | .lsrAbx _ => ⟨_, fun _ => rfl, .shiftMem _ .lsr⟩
  | .rolZp _ | .rolZpx _ | .rolAbs _ | .rolAbx _ => ⟨_, fun _ => rfl, .shiftMem _ .rol⟩
  | .rorZp _ | .rorZpx _ | .rorAbs _ | .rorAbx _ => ⟨_, fun _ => rfl, .shiftMem _ .ror⟩
  | .incZp _ | .incZpx _ | .incAbs _ | .incAbx _ => ⟨_, fun _ => rfl, .inc _⟩
  | .decZp _ | .decZpx _ | .decAbs _ | .decAbx _ => ⟨_, fun _ => rfl, .dec _⟩
  | .staZp _ | .staZpx _ | .staAbs _ | .staAbx _ | .staAby _ | .staIzx _ | .staIzy _ => ⟨_, fun _ => rfl, .sta _⟩
  | .stxZp _ | .stxZpy _ | .stxAbs _ => ⟨_, fun _ => rfl, .stx _⟩
  | .styZp _ | .styZpx _ | .styAbs _ => ⟨_, fun _ => rfl, .sty _⟩
  | .bpl _ => ⟨_, fun _ => rfl, .branch _ .bpl⟩
  | .bmi _ => ⟨_, fun _ => rfl, .branch _ .bmi⟩
  | .bvc _ => ⟨_, fun _ => rfl, .branch _ .bvc⟩
  | .bvs _ => ⟨_, fun _ => rfl, .branch _ .bvs⟩
  | .bcc _ => ⟨_, fun _ => rfl, .branch _ .bcc⟩
  | .bcs _ => ⟨_, fun _ => rfl, .branch _ .bcs⟩
  | .bne _ => ⟨_, fun _ => rfl, .branch _ .bne⟩
  | .beq _ => ⟨_, fun _ => rfl, .branch _ .beq⟩
  | .jmpAbs _ | .jmpInd _ => ⟨_, fun _ => rfl, .jmp _⟩
  | .jsr _ => ⟨_, fun _ => rfl, .jsr _⟩
  | .rts => ⟨_, fun _ => rfl, .rts⟩
  | .rti => ⟨_, fun _ => rfl, .rti⟩
  | .brk => ⟨_, fun _ => rfl, .brk⟩
  | .inx => ⟨_, fun _ => rfl, .implied .inx⟩
  | .iny => ⟨_, fun _ => rfl, .implied .iny⟩
  | .dex => ⟨_, fun _ => rfl, .implied .dex⟩
  | .dey => ⟨_, fun _ => rfl, .implied .dey⟩
  | .pha => ⟨_, fun _ => rfl, .implied .pha⟩
  | .php => ⟨_, fun _ => rfl, .implied .php⟩
  | .pla => ⟨_, fun _ => rfl, .implied .pla⟩
  | .plp => ⟨_, fun _ => rfl, .implied .plp⟩
  | .tax => ⟨_, fun _ => rfl, .implied .tax⟩
  | .tay => ⟨_, fun _ => rfl, .implied .tay⟩
  | .tsx => ⟨_, fun _ => rfl, .implied .tsx⟩
  | .txa => ⟨_, fun _ => rfl, .implied .txa⟩
  | .txs => ⟨_, fun _ => rfl, .implied .txs⟩
  | .tya => ⟨_, fun _ => rfl, .implied .tya⟩
  | .clc => ⟨_, fun _ => rfl, .implied .clc⟩
  | .cld => ⟨_, fun _ => rfl, .implied .cld⟩
  | .cli => ⟨_, fun _ => rfl, .implied .cli⟩
  | .clv => ⟨_, fun _ => rfl, .implied .clv⟩
  | .sec => ⟨_, fun _ => rfl, .implied .sec⟩
  | .sed => ⟨_, fun _ => rfl, .implied .sed⟩
  | .sei => ⟨_, fun _ => rfl, .implied .sei⟩
  | .nop => ⟨_, fun _ => rfl, .implied .nop⟩
  | .sentinel _ => ⟨_, fun _ => rfl, .sentinel _⟩

end Sys2Proof.Machine
end

section
/-! PROOF. What a boundary, a step and the host's load and power-on can do, one lemma each, and the written P of the
operations whose other fields Laws/State gives. -/

namespace Sys2Proof.Machine

/-- What a boundary can do (60_exceptions.md R268): take the NMI, take the IRQ, or execute the instruction at PC. -/
theorem boundary_cases {s t : State} (h : boundary s = .next t) :
    (s.nmiPending = true ∧ t = interruptEntry nmiVector { s with nmiPending := false }) ∨
    (s.nmiPending = false ∧ irqDue s = true ∧ t = interruptEntry irqVector s) ∨
    (interruptDue s = false ∧ exec (fetch s) s = .next t) := by
  unfold boundary at h
  split at h
  · next hn => cases h; exact .inl ⟨hn, rfl⟩
  · next hn =>
    rw [Bool.not_eq_true] at hn
    split at h
    · next hi => cases h; exact .inr (.inl ⟨hn, hi, rfl⟩)
    · next hi =>
      rw [Bool.not_eq_true] at hi
      exact .inr (.inr ⟨by simp [interruptDue, hn, hi], h⟩)

/-- What a step can do (70_reset_and_hazards.md R306): nothing in Reset and Stopped; in Running, count one owed cycle, or
pass the boundary and count. -/
theorem step_cases {s t : State} (h : step s = .next t) :
    ((s.run = .reset ∨ s.run = .stopped) ∧ t = s) ∨
    (s.run = .running ∧ s.owed ≠ 0 ∧ t = countTick s) ∨
    (s.run = .running ∧ s.owed = 0 ∧ ∃ u, boundary s = .next u ∧ t = afterBoundary u) := by
  unfold step tick at h
  split at h
  · cases h
  · next hr => cases h; exact .inl ⟨.inl hr, rfl⟩
  · next hr => cases h; exact .inl ⟨.inr hr, rfl⟩
  · next hr =>
    split at h
    · next ho =>
      split at h
      · next u hu => cases h; exact .inr (.inr ⟨hr, ho, u, hu, rfl⟩)
      · cases h
      · cases h
    · next ho => cases h; exact .inr (.inl ⟨hr, ho, rfl⟩)

@[simp] theorem addWithCarry_p (m : Byte) (s : State) : (addWithCarry m s).p =
    let r := BitVec.ofNat 8 (carrySum s.a m s.carry)
    setBit 7 (r.getLsbD 7) (setBit 1 (r == 0#8)
      (setBit 6 (signedOverflow s.a m r) (setBit 0 (decide (carrySum s.a m s.carry > 0xFF)) s.p))) := rfl

@[simp] theorem compareFlags_p (reg m : Byte) (s : State) : (compareFlags reg m s).p =
    setBit 7 ((reg - m).getLsbD 7) (setBit 1 (reg - m == 0#8) (setBit 0 (decide (reg.toNat ≥ m.toNat)) s.p)) := rfl

@[simp] theorem bitFlags_p (m : Byte) (s : State) : (bitFlags m s).p =
    setBit 6 (m.getLsbD 6) (setBit 7 (m.getLsbD 7) (setBit 1 ((s.a &&& m) == 0#8) s.p)) := rfl

@[simp] theorem pullA_p (s : State) : (pullA s).p =
    setBit 7 ((pullByte s).getLsbD 7) (setBit 1 (pullByte s == 0#8) s.p) := rfl

/-- The reset sequence sets U (70_reset_and_hazards.md R301). -/
@[simp] theorem resetSequence_unused (s : State) : (resetSequence s).unused = true := by
  simp [State.unused, resetSequence, resetP]

/-- An image that load takes fills the banks exactly. -/
theorem length_of_banksOf {n : Nat} {b : Banks} (h : banksOf n = some b) : n = prgSize b := by
  unfold banksOf at h
  split at h
  · next hn => cases h; exact hn
  · split at h
    · next hn => cases h; exact hn
    · cases h

/-- What load can do: place the image and its number of banks, before reset only. -/
theorem load_cases {prg : List Byte} {s t : State} (h : load prg s = .next t) :
    s.run = .reset ∧ ∃ b, prg.length = prgSize b ∧
      t = { s with mem := storeImage prg 0x8000 (ramOnly s.mem), cfg := { s.cfg with prgBanks := b } } := by
  unfold load at h
  split at h
  · next hr =>
    split at h
    · next b hb => cases h; exact ⟨hr, b, length_of_banksOf hb, rfl⟩
    · cases h
  · cases h

/-- What power-on can do: the reset sequence before reset, nothing later. -/
theorem powerOn_cases {s t : State} (h : powerOn s = .next t) :
    (s.run = .reset ∧ t = resetSequence s) ∨ (s.run ≠ .reset ∧ t = s) := by
  unfold powerOn at h
  split at h
  · next hr =>
    split at h
    · cases h; exact .inl ⟨hr, rfl⟩
    · cases h
  · next hr => cases h; exact .inr ⟨hr, rfl⟩

/-- The default costs are admitted whatever the number of banks. -/
theorem costsAdmitted_defaultConfig (b : Banks) : costsAdmitted { defaultConfig with prgBanks := b } = true := by
  show costsAdmitted defaultConfig = true
  decide +kernel

end Sys2Proof.Machine
end

section
/-! PROOF. The machine invariant (O51, O52, O53): every operation that instructions are made of keeps memory in canonical
form and in the map, and keeps the unused bit of P at 1, so every step and every move of the host does. -/

namespace Sys2Proof.Safety

open Sys2Proof.Machine

/-- The invariant from the reset sequence on, whatever `run` is: `MachineInv` with the unused bit 1. -/
structure RunInv (s : State) : Prop where
  wf : s.mem.wf = true
  inMap : s.mem.inMap s.cfg.prgBanks = true
  unused : s.unused = true

theorem RunInv.machineInv {s : State} (h : RunInv s) : MachineInv s := ⟨h.wf, h.inMap, fun _ => h.unused⟩

theorem MachineInv.runInv {s : State} (h : MachineInv s) (hr : s.run ≠ .reset) : RunInv s :=
  let ⟨hw, hm, hu⟩ := h
  ⟨hw, hm, hu hr⟩

/-- A state with the memory, parameters and unused bit of s. -/
def SameMemAndUnused (s t : State) : Prop := t.mem = s.mem ∧ t.cfg = s.cfg ∧ t.unused = s.unused

/-- The P an exception leaves, with I set or not, has the unused bit of the P it starts from. -/
theorem unused_setI_if (c : Bool) (p : Byte) :
    (if c then setBit 2 true p else p).getLsbD 5 = p.getLsbD 5 := by
  cases c
  · rfl
  · exact getLsbD_setBit 2 5 true p (by decide) (by decide)

theorem RunInv.congr {s t : State} (h : RunInv s) (ht : SameMemAndUnused s t) : RunInv t := by
  obtain ⟨hm, hc, hu⟩ := ht
  exact ⟨hm ▸ h.wf, hm ▸ hc ▸ h.inMap, hu ▸ h.unused⟩

section
variable {s : State} (h : RunInv s)
include h

theorem RunInv.memWrite (a : Word) (v : Byte) : RunInv (memWrite a v s) :=
  ⟨memWrite_wf a v s h.wf, by simpa using memWrite_inMap a v s h.inMap, by simpa [State.unused] using h.unused⟩

theorem RunInv.push8 (v : Byte) : RunInv (push8 v s) := (h.memWrite (stackAddr s.sp) v).congr ⟨rfl, rfl, rfl⟩

theorem RunInv.push16 (w : Word) : RunInv (push16 w s) := (h.push8 _).push8 _

theorem RunInv.setZN (v : Byte) : RunInv (setZN v s) := h.congr ⟨rfl, rfl, by simp [State.unused]⟩

theorem RunInv.setC (b : Bool) : RunInv (setC b s) := h.congr ⟨rfl, rfl, by simp [State.unused]⟩

theorem RunInv.charge (k : Kind) (o : Operand) (extra : Nat) : RunInv (charge k o extra s) := h.congr ⟨rfl, rfl, rfl⟩

theorem RunInv.retire (k : Kind) (o : Operand) (extra : Nat) : RunInv (retire k o extra s) := h.congr ⟨rfl, rfl, rfl⟩

/-- Taking an exception keeps the invariant when the new P has U = 1 (R204, R269). -/
theorem RunInv.enterException {newP : Byte} (hp : newP.getLsbD 5 = true) (ret : Word) (pushed : Byte) (vec : Word) :
    RunInv (enterException ret pushed newP vec s) :=
  let pushes := (h.push16 ret).push8 pushed
  ⟨pushes.wf, pushes.inMap, hp⟩

theorem RunInv.interruptEntry (vec : Word) : RunInv (interruptEntry vec s) :=
  have hp := (unused_setI_if s.cfg.intSetsI s.p).trans h.unused
  (h.enterException hp _ _ vec).congr ⟨rfl, rfl, rfl⟩

theorem RunInv.leaveException : RunInv (leaveException s) := ⟨h.wf, h.inMap, by simp [State.unused]⟩

theorem RunInv.pullP : RunInv (pullP s) := ⟨h.wf, h.inMap, by simp [State.unused]⟩

theorem RunInv.readEffect {k : Kind} {effect : Byte → State → State} (he : ReadEffect k effect) (v : Byte) :
    RunInv (effect v s) := by
  -- every read effect writes registers and flags other than U
  apply h.congr
  cases he <;> exact ⟨rfl, rfl, by simp [State.unused]⟩

theorem RunInv.impliedEffect {k : Kind} {effect : State → State} (he : ImpliedEffect k effect) : RunInv (effect s) := by
  cases he
  case pha => exact h.push8 _
  case php => exact h.push8 _
  case plp => exact h.pullP
  -- the others write registers and flags other than U
  all_goals exact h.congr ⟨rfl, rfl, by simp [State.unused]⟩

theorem RunInv.shiftAcc (k : Kind) (op : ShiftOp) : RunInv (shiftAcc k op s) :=
  h.congr ⟨rfl, rfl, by simp [Machine.shiftAcc, State.unused]⟩

theorem RunInv.shiftMem (k : Kind) (op : ShiftOp) (m : MemOperand) : RunInv (shiftMem k op m s) :=
  (((h.setC _).setZN _).memWrite _ _).retire _ _ _

theorem RunInv.countMem (k : Kind) (result : Byte → Byte) (m : MemOperand) : RunInv (countMem k result m s) :=
  ((h.setZN _).memWrite _ _).retire _ _ _

theorem RunInv.storeInstr (k : Kind) (reg : Byte) (m : MemOperand) : RunInv (storeInstr k reg m s) := by
  have hw := h.memWrite (ea m s) reg
  apply RunInv.retire
  split
  · exact hw.setZN reg
  · exact hw

theorem RunInv.branch (k : Kind) (taken : Bool) (off : Byte) : RunInv (branch k taken off s) := by
  apply h.congr
  cases taken <;> exact ⟨rfl, rfl, rfl⟩

theorem RunInv.softwareBreak : RunInv (softwareBreak s) :=
  have hb : (setBit 4 true s.p).getLsbD 5 = true := (getLsbD_setBit 4 5 true s.p (by decide) (by decide)).trans h.unused
  have hp := (unused_setI_if s.cfg.brkSetsI (setBit 4 true s.p)).trans hb
  (h.enterException hp _ _ irqVector).charge _ _ _

/-- Every meaning of an instruction keeps the invariant. -/
theorem RunInv.meaning {k : Kind} {o : Operand} {f : State → State} (hf : Meaning k o f) : RunInv (f s) := by
  cases hf with
  | read m he => exact (h.readEffect he _).retire _ _ _
  | implied he => exact (h.impliedEffect he).retire _ _ _
  | shiftAcc _ => exact h.shiftAcc _ _
  | shiftMem m _ => exact h.shiftMem _ _ m
  | inc m => exact h.countMem _ _ m
  | dec m => exact h.countMem _ _ m
  | sta m => exact h.storeInstr _ _ m
  | stx m => exact h.storeInstr _ _ m
  | sty m => exact h.storeInstr _ _ m
  | branch off _ => exact h.branch _ _ off
  | jmp m => exact h.congr ⟨rfl, rfl, rfl⟩
  | jsr addr => exact (h.push16 _).congr ⟨rfl, rfl, rfl⟩
  | rts => exact h.congr ⟨rfl, rfl, rfl⟩
  | rti => exact h.leaveException.charge _ _ _
  | brk => exact h.softwareBreak
  | sentinel opcode => exact h.congr ⟨rfl, rfl, rfl⟩

theorem RunInv.exec {i : Instr} {t : State} (ht : exec i s = .next t) : RunInv t := by
  obtain ⟨f, hf, meaning⟩ := exec_meaning i
  cases (hf s).symm.trans ht
  exact h.meaning meaning

theorem RunInv.boundary {t : State} (ht : boundary s = .next t) : RunInv t := by
  obtain ⟨-, rfl⟩ | ⟨-, -, rfl⟩ | ⟨-, he⟩ := boundary_cases ht
  · have latched : RunInv { s with nmiPending := false } := h.congr ⟨rfl, rfl, rfl⟩
    exact latched.interruptEntry nmiVector
  · exact h.interruptEntry irqVector
  · exact h.exec he

theorem RunInv.countTick : RunInv (countTick s) := h.congr ⟨rfl, rfl, rfl⟩

theorem RunInv.afterBoundary : RunInv (afterBoundary s) := by
  unfold Machine.afterBoundary
  split
  · exact h.countTick
  · exact h

end

section
variable {s : State} (h : MachineInv s)
include h

theorem MachineInv.step {t : State} (ht : step s = .next t) : MachineInv t := by
  obtain ⟨-, rfl⟩ | ⟨hr, -, rfl⟩ | ⟨hr, -, u, hu, rfl⟩ := step_cases ht
  · exact h
  all_goals have running : RunInv s := h.runInv (by rw [hr]; nofun)
  · exact running.countTick.machineInv
  · exact (running.boundary hu).afterBoundary.machineInv

/-- The image takes the place of PRG and fits its banks; `run` stays Reset, so U is not asked. -/
theorem MachineInv.load {prg : List Byte} {t : State} (ht : load prg s = .next t) : MachineInv t := by
  obtain ⟨hr, b, hl, rfl⟩ := load_cases ht
  obtain ⟨hw, -, -⟩ := h
  obtain ⟨stored_wf, stored_inMap⟩ := storeImage_keeps b prg 0x8000 (ramOnly s.mem) (ramOnly_wf _ hw)
    (ramOnly_inMap b s.mem) (Nat.le_refl _) (by rw [hl])
  exact ⟨stored_wf, stored_inMap, fun hn => absurd hr hn⟩

theorem MachineInv.resetSequence : RunInv (resetSequence s) :=
  let ⟨hw, hm, _⟩ := h
  ⟨hw, hm, resetSequence_unused s⟩

theorem MachineInv.powerOn {t : State} (ht : powerOn s = .next t) : MachineInv t := by
  obtain ⟨-, rfl⟩ | ⟨-, rfl⟩ := powerOn_cases ht
  · exact h.resetSequence.machineInv
  · exact h

/-- `nmi_raise` writes the latch alone. -/
theorem MachineInv.raiseNmi : MachineInv (raiseNmi s) := by
  unfold Machine.raiseNmi
  split <;> exact h

/-- `stop` moves Running, where U is 1, to Stopped. -/
theorem MachineInv.stopRun : MachineInv (stopRun s) := by
  unfold Machine.stopRun
  split
  · next hr =>
    have running : RunInv s := h.runInv (by rw [hr]; nofun)
    have stopped : RunInv { s with run := .stopped } := running.congr ⟨rfl, rfl, rfl⟩
    exact stopped.machineInv
  all_goals exact h

theorem MachineInv.move {m : Move} {t : State} (ht : move m s = .next t) : MachineInv t := by
  cases m with
  | load prg => exact h.load ht
  | reset => exact h.powerOn ht
  | tick => exact h.step ht
  | nmiRaise => cases ht; exact h.raiseNmi
  | irqLine level => cases ht; exact h
  | stop => cases ht; exact h.stopRun

end

theorem machineInv_beforeReset : MachineInv State.beforeReset := ⟨rfl, rfl, fun hr => absurd rfl hr⟩

/-- Before reset an image of one or two banks loads, and the reset sequence follows. -/
theorem load_then_reset_beforeReset {prg : List Byte} (hl : prg.length = 0x4000 ∨ prg.length = 0x8000) :
    ∃ t, move (.load prg) State.beforeReset = .next t ∧ move .reset t = .next (resetSequence t) := by
  obtain ⟨b, hb⟩ : ∃ b, banksOf prg.length = some b := by
    obtain hl | hl := hl <;> rw [hl]
    · exact ⟨.one, rfl⟩
    · exact ⟨.two, rfl⟩
  exact ⟨_, load_of_reset rfl hb, powerOn_of_reset rfl (costsAdmitted_defaultConfig b)⟩

/-- Settles O52: in Running the unused bit is 1, and every operation a boundary is made of keeps `RunInv`. -/
theorem stepKeepsInvariant : Obligations.StepKeepsInvariant := fun _ _ h ht => h.step ht

/-- Settles O53, by cases on the move; the load and the reset sequence before it are moves like any other. -/
theorem movesKeepInvariant : Obligations.MovesKeepInvariant := by
  refine ⟨fun _ _ _ h ht => h.move ht, machineInv_beforeReset, fun prg hl => ?_⟩
  obtain ⟨t, loaded, reset⟩ := load_then_reset_beforeReset hl
  have ht : MachineInv t := machineInv_beforeReset.move loaded
  exact ⟨t, resetSequence t, loaded, reset, ht, ht.move reset, resetSequence_unused t⟩

/-- Settles O51: `State.reset` is what the reset sequence makes of the state before reset. -/
theorem resetMeetsInvariant : Obligations.ResetMeetsInvariant :=
  (machineInv_beforeReset.resetSequence).machineInv

end Sys2Proof.Safety
end

section
/-! PROOF. Internal RAM and its four mirrors (O8): below 0x2000 an address reaches the location its low 11 bits name, and
from 0x2000 on none of those locations. -/

namespace Sys2Proof.Machine

/-- The low 11 bits of an address are its remainder modulo the 2 KB of RAM. -/
theorem toNat_and_ramMask (a : Word) : (a &&& 0x07FF#16).toNat = a.toNat % 0x0800 := by
  rw [BitVec.toNat_and]
  exact Nat.and_two_pow_sub_one_eq_mod a.toNat 11

theorem and_ramMask_eq_iff (a b : Word) :
    a &&& 0x07FF#16 = b &&& 0x07FF#16 ↔ a.toNat % 0x0800 = b.toNat % 0x0800 := by
  rw [← BitVec.toNat_inj, toNat_and_ramMask, toNat_and_ramMask]

theorem locate_ram (banks : Banks) {a : Word} (ha : a.toNat < 0x2000) :
    locate banks a = some (a.toNat % 0x0800) := by
  unfold locate
  rw [if_pos ha]

/-- An address and its first mirror reach the same location (R53). -/
theorem locate_and_ramMask (banks : Banks) {a : Word} (ha : a.toNat < 0x2000) :
    locate banks (a &&& 0x07FF#16) = locate banks a := by
  have hm := toNat_and_ramMask a
  rw [locate_ram banks (by omega), locate_ram banks ha, hm, Nat.mod_mod]

/-- From 0x2000 on an address reaches a PRG location or none (R54, R56). -/
theorem prg_le_of_locate_aboveRam {banks : Banks} {a : Word} {k : Nat} (ha : 0x2000 ≤ a.toNat)
    (h : locate banks a = some k) : 0x8000 ≤ k := by
  unfold locate at h
  rw [if_neg (by omega)] at h
  split at h
  · nomatch h
  · injection h with h
    omega

/-- No address from 0x2000 on reaches the location of a RAM address. -/
theorem locate_aboveRam_ne_locate_ram (banks : Banks) {a b : Word} (ha : a.toNat < 0x2000) (hb : 0x2000 ≤ b.toNat) :
    locate banks b ≠ locate banks a := by
  intro h
  have hk := prg_le_of_locate_aboveRam hb (h.trans (locate_ram banks ha))
  omega

theorem memRead_congr_locate {s : State} {a b : Word} (h : locate s.cfg.prgBanks a = locate s.cfg.prgBanks b) :
    memRead s a = memRead s b := by
  unfold memRead
  rw [h]

/-- A write to RAM is read back exactly at the RAM addresses with the same low 11 bits (R53). -/
theorem memRead_memWrite_ram (s : State) {a b : Word} (v : Byte) (ha : a.toNat < 0x2000) (hb : b.toNat < 0x2000) :
    memRead (memWrite a v s) b = if a &&& 0x07FF#16 = b &&& 0x07FF#16 then v else memRead s b := by
  rw [memRead_memWrite, locate_ram _ ha, locate_ram _ hb]
  simp only [and_ramMask_eq_iff, Option.some.injEq, Option.isSome_some, and_true, eq_comm (a := b.toNat % 0x0800)]

/-- A write to RAM is not seen from 0x2000 on, in PRG or where nothing is mapped. -/
theorem memRead_memWrite_aboveRam (s : State) {a b : Word} (v : Byte) (ha : a.toNat < 0x2000) (hb : 0x2000 ≤ b.toNat) :
    memRead (memWrite a v s) b = memRead s b := by
  rw [memRead_memWrite, if_neg]
  exact fun h => locate_aboveRam_ne_locate_ram _ ha hb h.1

/-- Settles O8: which location an address reaches decides what is read and where a write is seen. -/
theorem ramIsMirrored : Obligations.RamIsMirrored := fun s _ _ v ha =>
  ⟨(memRead_congr_locate (locate_and_ramMask s.cfg.prgBanks ha)).symm, memRead_memWrite_ram s v ha,
    memRead_memWrite_aboveRam s v ha⟩

end Sys2Proof.Machine
end

section
/-! PROOF. Words of the opcode table (O3): a table word decodes to the instruction of its three bytes, lowest first. -/

namespace Sys2Proof

/-- No table word is too short to decode: it always supplies the three bytes of the longest instruction. -/
theorem decodeTableWord_eq_some (nbits w : Nat) :
    decodeTableWord nbits w =
      some (decodeOp true (tableByte (w % 2 ^ nbits) 0) (tableByte (w % 2 ^ nbits) 1) (tableByte (w % 2 ^ nbits) 2)) := by
  unfold decodeTableWord
  obtain ⟨_, decoded⟩ := decode_three true (tableByte (w % 2 ^ nbits) 0) (tableByte (w % 2 ^ nbits) 1)
    (tableByte (w % 2 ^ nbits) 2)
  simp only [decoded]

/-- Settles O3: each word names a row of the opcode map by its lowest byte, and the bytes above it are the operand. -/
theorem sourceWordsDecode : Obligations.SourceWordsDecode := by
  unfold Obligations.SourceWordsDecode
  simp only [decodeTableWord_eq_some]
  decide

end Sys2Proof
end

section
/-! PROOF. The register loads (O35) and transfers (O37): both write registers and then SetZN of the byte moved, but TXS,
which writes S alone. -/

namespace Sys2Proof.Machine

open Sys2Proof.Safety

/-- A read-class kind has one effect. -/
theorem ReadEffect.unique {k : Kind} {effect effect' : Byte → State → State} (h : ReadEffect k effect)
    (h' : ReadEffect k effect') : effect = effect' := by
  cases h <;> cases h' <;> rfl

/-- Every instruction of a read-class kind has an operand with an address and runs the kind's effect on its byte. -/
theorem exec_of_readEffect {i : Instr} {k : Kind} {effect : Byte → State → State} (he : ReadEffect k effect)
    (hk : i.kind = k) : ∃ m, i.operand = .mem m ∧ ∀ s, exec i s = .next (readInstr k effect m s) := by
  obtain ⟨f, hf, meaning⟩ := exec_meaning i
  rw [hk] at meaning
  generalize i.operand = o at meaning ⊢
  cases meaning
  case read m he' => exact ⟨m, rfl, he.unique he' ▸ hf⟩
  -- no other meaning is of a read-class kind
  case implied hi => cases he <;> cases hi
  case shiftAcc ho => cases he <;> cases ho
  case shiftMem ho => cases he <;> cases ho
  case branch ht => cases he <;> cases ht
  all_goals cases he

/-- An instruction that writes A, X and Y, then SetZN(v), leaves these registers and flags and keeps everything else. -/
theorem completes_of_setZN {i : Instr} {k : Kind} {o : Operand} {s : State} {extra : Nat} {a x y v : Byte}
    (hk : i.kind = k) (ho : i.operand = o)
    (hx : exec i s = .next (retire k o extra (setZN v { s with a := a, x := x, y := y }))) :
    Completes i s extra (fun t =>
      RegsAre t a x y s.sp ∧ FlagsZN t v ∧ KeepsFlags 0x82#8 s t ∧ KeepsMemory s t) := by
  apply completes_of_retire i k o extra s _ _ hx hk ho
  · exact ⟨rfl, rfl, rfl, rfl, rfl, rfl⟩
  · exact ⟨⟨rfl, rfl, rfl, rfl⟩, and_assoc.mp ⟨flagsZN_keepsFlags rfl, keepsMemory_of_eq rfl rfl⟩⟩

/-- Settles O35: each load is the read effect that writes its register, then SetZN. -/
theorem loadResults : Obligations.LoadResults := by
  refine ⟨fun i s hk => ?lda, fun i s hk => ?ldx, fun i s hk => ?ldy⟩
  case lda =>
    obtain ⟨m, ho, run⟩ := exec_of_readEffect .lda hk
    refine ⟨m, ho, ?_, (completes_of_setZN hk ho (run s)).mono fun t ⟨⟨ha, regs⟩, zn, frame⟩ => ?_⟩
    · cases i <;> cases hk <;> exact List.mem_of_elem_eq_true rfl
    · exact ⟨⟨ha, regs⟩, ha ▸ zn, frame⟩
  case ldx =>
    obtain ⟨m, ho, run⟩ := exec_of_readEffect .ldx hk
    refine ⟨m, ho, ?_, (completes_of_setZN hk ho (run s)).mono fun t ⟨⟨ha, hx, regs⟩, zn, frame⟩ => ?_⟩
    · cases i <;> cases hk <;> exact List.mem_of_elem_eq_true rfl
    · exact ⟨⟨ha, hx, regs⟩, hx ▸ zn, frame⟩
  case ldy =>
    obtain ⟨m, ho, run⟩ := exec_of_readEffect .ldy hk
    refine ⟨m, ho, ?_, (completes_of_setZN hk ho (run s)).mono fun t ⟨⟨ha, hx, hy, hsp⟩, zn, frame⟩ => ?_⟩
    · cases i <;> cases hk <;> exact List.mem_of_elem_eq_true rfl
    · exact ⟨⟨ha, hx, hy, hsp⟩, hy ▸ zn, frame⟩

/-- TXS writes S and no flag (R235). -/
theorem completes_txs (s : State) :
    Completes .txs s 0 (fun t => RegsAre t s.a s.x s.y s.x ∧ t.p = s.p ∧ KeepsMemory s t) :=
  completes_of_retire .txs .txs .implied 0 s { s with sp := s.x } _ rfl rfl rfl ⟨rfl, rfl, rfl, rfl, rfl, rfl⟩
    ⟨⟨rfl, rfl, rfl, rfl⟩, rfl, keepsMemory_of_eq rfl rfl⟩

/-- Settles O37: each transfer but TXS writes its register, then SetZN of the byte moved. -/
theorem transferResults : Obligations.TransferResults := by
  refine fun s => ⟨⟨?_, ?tax⟩, ⟨?_, ?tay⟩, ⟨?_, ?tsx⟩, ⟨?_, ?txa⟩, ⟨?_, completes_txs s⟩, ⟨?_, ?tya⟩⟩
  case tax | tay | tsx | txa | tya => exact completes_of_setZN rfl rfl rfl
  -- each encoding is the one listed
  all_goals exact List.mem_singleton_self _

end Sys2Proof.Machine
end

section
/-! PROOF. The decoder and the encoder (O1, O2, O4, O5, O6): which opcodes are sentinels, that what decodes is well-formed,
and that the operand bytes are those the length asks for. -/

namespace Sys2Proof

open Sys2Proof.Machine

/-- The empty cells of the opcode ROM are the 105 sentinel opcodes (R85). -/
theorem mem_sentinelOpcodes_iff (op b1 b2 : Byte) :
    op ∈ sentinelOpcodes ↔ (romLookup op b1 b2).kind = .noInstruction := by
  rw [romLookup_kind]
  revert op
  decide +kernel

/-- The cells of the kinds the source never names are the 30 unlisted opcodes (R86). -/
theorem mem_unlistedOpcodes_iff (op b1 b2 : Byte) :
    op ∈ unlistedOpcodes ↔ (romLookup op b1 b2).kind.unlisted = true := by
  rw [romLookup_kind]
  revert op
  decide +kernel

theorem eq_sentinel_of_kind {i : Instr} (h : i.kind = .noInstruction) : i = .sentinel i.opcode := by
  cases i
  case sentinel => rfl
  all_goals nomatch h

theorem mode_ne_noMode {i : Instr} (h : i.kind ≠ .noInstruction) : i.mode ≠ .noMode := by
  cases i
  case sentinel => exact absurd rfl h
  all_goals exact Mode.noConfusion

theorem wf_of_kind_ne {i : Instr} (allow : Bool) (h : i.kind ≠ .noInstruction) :
    i.wf allow = (allow || !i.kind.unlisted) := by
  cases i
  case sentinel => exact absurd rfl h
  all_goals rfl

/-- A sentinel opcode's cell is the sentinel. -/
theorem romLookup_of_sentinel {op b1 b2 : Byte} (h : (romLookup op b1 b2).kind = .noInstruction) :
    romLookup op b1 b2 = .sentinel op := by
  have hi := eq_sentinel_of_kind h
  rwa [romLookup_opcode] at hi

theorem decodeOp_of_admitted {allow : Bool} {op b1 b2 : Byte}
    (h : allow = true ∨ (romLookup op b1 b2).kind.unlisted = false) : decodeOp allow op b1 b2 = romLookup op b1 b2 := by
  unfold decodeOp
  obtain h | h := h <;> simp [h]

theorem decodeOp_of_unlisted {op b1 b2 : Byte} (h : op ∈ unlistedOpcodes) : decodeOp false op b1 b2 = .sentinel op := by
  unfold decodeOp
  simp [(mem_unlistedOpcodes_iff op b1 b2).mp h]

/-- Every opcode decodes to a well-formed instruction under either setting. -/
theorem decodeOp_wf (allow : Bool) (op b1 b2 : Byte) : (decodeOp allow op b1 b2).wf allow = true := by
  by_cases ha : allow = true ∨ (romLookup op b1 b2).kind.unlisted = false
  · rw [decodeOp_of_admitted ha]
    by_cases hk : (romLookup op b1 b2).kind = .noInstruction
    · have hop := (mem_sentinelOpcodes_iff op b1 b2).mpr hk
      simp [romLookup_of_sentinel hk, Instr.wf, hop]
    · rw [wf_of_kind_ne allow hk]
      obtain h | h := ha <;> simp [h]
  · obtain ⟨hallow, hu⟩ : allow = false ∧ (romLookup op b1 b2).kind.unlisted = true := by simpa using ha
    subst hallow
    have hop := (mem_unlistedOpcodes_iff op b1 b2).mpr hu
    simp [decodeOp_of_unlisted hop, Instr.wf, hop]

/-- A well-formed instruction is what its opcode and its operand bytes decode to. -/
theorem decodeOp_of_wf {allow : Bool} {i : Instr} (h : i.wf allow = true) :
    ∃ b1 b2, decodeOp allow i.opcode b1 b2 = i ∧ i.operand.bytes = [b1, b2].take (i.length - 1) := by
  by_cases hk : i.kind = .noInstruction
  · refine ⟨0, 0, ?_, by rw [eq_sentinel_of_kind hk]; rfl⟩
    rw [eq_sentinel_of_kind hk] at h ⊢
    obtain hs | ⟨hallow, hu⟩ : i.opcode ∈ sentinelOpcodes ∨ allow = false ∧ i.opcode ∈ unlistedOpcodes := by
      simpa [Instr.wf] using h
    · have hn := (mem_sentinelOpcodes_iff i.opcode 0 0).mp hs
      have listed : (romLookup i.opcode 0 0).kind.unlisted = false := hn ▸ rfl
      exact (decodeOp_of_admitted (.inr listed)).trans (romLookup_of_sentinel hn)
    · subst hallow
      exact decodeOp_of_unlisted hu
  · obtain ⟨b1, b2, cell, bytes⟩ := romLookup_of i hk
    refine ⟨b1, b2, ?_, bytes⟩
    have admitted : allow = true ∨ i.kind.unlisted = false := by simpa [wf_of_kind_ne allow hk] using h
    rw [decodeOp_of_admitted (by rwa [cell]), cell]

/-- An instruction of length n + 1 has n operand bytes, at most 2. -/
theorem length_bytes (i : Instr) : i.operand.bytes.length + 1 = i.length := by
  cases i <;> rfl

theorem length_sub_one_le (i : Instr) : i.length - 1 ≤ 2 := by
  have := length_cases i
  omega

/-- The first n of the bytes of a list that holds n, n at most 2. -/
theorem take_getD_zero_one {r : List Byte} {n : Nat} (hn : n ≤ 2) (hr : n ≤ r.length) :
    [r.getD 0 0, r.getD 1 0].take n = r.take n := by
  match n, r, hn, hr with
  | 0, _, _, _ => rfl
  | 1, _ :: _, _, _ => rfl
  | 2, _ :: _ :: _, _, _ => rfl

/-- What the decoder gives for an opcode byte and enough bytes after it. -/
theorem decode_cons {allow : Bool} {op : Byte} {r : List Byte} (h : (decodeOp allow op 0 0).length - 1 ≤ r.length) :
    decode allow (op :: r) =
      .ok (decodeOp allow op (r.getD 0 0) (r.getD 1 0), r.drop ((decodeOp allow op 0 0).length - 1)) :=
  if_neg (Nat.not_lt.mpr h)

/-- What decodes is an opcode byte with enough bytes after it. -/
theorem decode_eq_ok {allow : Bool} {bytes rest : List Byte} {i : Instr} (h : decode allow bytes = .ok (i, rest)) :
    ∃ op r, bytes = op :: r ∧ (decodeOp allow op 0 0).length - 1 ≤ r.length ∧
      i = decodeOp allow op (r.getD 0 0) (r.getD 1 0) ∧ rest = r.drop ((decodeOp allow op 0 0).length - 1) := by
  match bytes with
  | [] => nomatch h
  | op :: r =>
    by_cases hr : r.length < (decodeOp allow op 0 0).length - 1
    · nomatch (if_pos hr).symm.trans h
    · rw [decode_cons (Nat.not_lt.mp hr)] at h
      cases h
      exact ⟨op, r, rfl, Nat.not_lt.mp hr, rfl, rfl⟩

/-- Settles O1: a well-formed instruction is its opcode's cell at its operand bytes, and the decoder takes as many bytes as
the opcode's length says. -/
theorem decodeEncodeAgree : Obligations.DecodeEncodeAgree := by
  intro allow i rest hwf
  obtain ⟨b1, b2, cell, bytes⟩ := decodeOp_of_wf hwf
  have ilen : i.length - 1 = i.operand.bytes.length := by rw [← length_bytes, Nat.add_sub_cancel]
  have len : (decodeOp allow i.opcode 0 0).length - 1 = i.operand.bytes.length := by
    rw [← decodeOp_length allow i.opcode b1 b2, cell, ilen]
  have short : i.operand.bytes.length ≤ 2 := ilen ▸ length_sub_one_le i
  have long : i.operand.bytes.length ≤ (i.operand.bytes ++ rest).length := by simp
  have same : decodeOp allow i.opcode ((i.operand.bytes ++ rest).getD 0 0) ((i.operand.bytes ++ rest).getD 1 0) = i := by
    rw [decodeOp_congr allow i.opcode _ _ b1 b2, cell]
    rw [len, take_getD_zero_one short long, List.take_left, ← ilen, bytes]
  show decode allow (i.opcode :: (i.operand.bytes ++ rest)) = _
  rw [decode_cons (by rwa [len]), len, List.drop_left, same]

/-- Settles O2: the operand bytes are those taken from the list, and every opcode decodes to a well-formed instruction. -/
theorem encodeDecodeAgree : Obligations.EncodeDecodeAgree := by
  intro allow bytes rest i h
  obtain ⟨op, r, rfl, hr, rfl, rfl⟩ := decode_eq_ok h
  refine ⟨?_, decodeOp_wf _ _ _ _⟩
  rw [encode, decodeOp_opcode, decodeOp_bytes, take_getD_zero_one (length_sub_one_le _) hr, List.cons_append,
    List.take_append_drop]

/-- Settles O4: the ROM's empty cells are the sentinel, and its meaning is the halt. -/
theorem undefinedOpcodesHalt : Obligations.UndefinedOpcodesHalt := by
  refine ⟨rfl, fun op b1 b2 => ?_, fun _ _ => rfl⟩
  rw [mem_sentinelOpcodes_iff op b1 b2, decodeOp_of_admitted (.inl rfl)]
  exact ⟨romLookup_of_sentinel, fun h => h ▸ rfl⟩

/-- Settles O5: the parameter is looked at for the cells of the unlisted kinds alone. -/
theorem unlistedKindsParameter : Obligations.UnlistedKindsParameter := by
  refine ⟨rfl, fun op b1 b2 h => ⟨decodeOp_of_unlisted h, ?_⟩, fun op b1 b2 h => ?_⟩
  · rw [decodeOp_of_admitted (.inl rfl)]
    exact List.mem_of_elem_eq_true ((mem_unlistedOpcodes_iff op b1 b2).mp h)
  · have hu : (romLookup op b1 b2).kind.unlisted = false := by simpa using mt (mem_unlistedOpcodes_iff op b1 b2).mpr h
    rw [decodeOp_of_admitted (.inl rfl), decodeOp_of_admitted (.inr hu)]
    exact ⟨rfl, fun hm => absurd (List.elem_eq_true_of_mem hm) (Bool.eq_false_iff.mp hu)⟩

/-- Settles O6: the length is the mode's, and the decoder's cell for an opcode fixes the mode. -/
theorem instructionLengths : Obligations.InstructionLengths := by
  refine ⟨fun i h => ⟨mode_ne_noMode h, ?_⟩, fun allow op b1 b2 c1 c2 => ⟨?_, ?_, ?_⟩⟩
  · unfold Instr.length
    generalize i.mode = m
    cases m <;> decide
  · rw [decodeOp_bytes, decodeOp_length allow op b1]
  · rw [decodeOp_mode allow op b1, decodeOp_mode allow op c1]
  · rw [decodeOp_length allow op b1, decodeOp_length allow op c1]

end Sys2Proof
end

section
/-! PROOF. What no boundary looks at (O54, O55): the counters and the parameters of cost alone decide nothing but `owed`, and
no instruction sees the elapsed cycles, the NMI latch or the IRQ line. Each is said of every meaning of an instruction. -/

namespace Sys2Proof.Machine

open Sys2Proof.Safety

/-- The parameters with those that bear on cost alone cleared. -/
def untimedConfig (c : Config) : Config :=
  { c with cycleTable := ⟨[], []⟩, intEntryCycles := 0, beqPagePenalty := false, branchPageBase := .opcode }

/-- The state with the counters and the parameters that bear on cost alone cleared. -/
def untimed (s : State) : State := { s with cycles := 0, owed := 0, cfg := untimedConfig s.cfg }

/-- Two states agree but for timing when they are the same state untimed. -/
theorem agreesButTiming_iff (s t : State) : AgreesButTiming s t ↔ untimed s = untimed t := by
  constructor
  · intro h
    exact (congrArg untimed h).symm
  · obtain ⟨⟩ := s
    obtain ⟨⟩ := t
    simp only [AgreesButTiming, untimed, untimedConfig, State.mk.injEq, Config.mk.injEq, true_and, and_true]
    rintro ⟨rfl, rfl, rfl, rfl, rfl, rfl, rfl, rfl, rfl, rfl, hc⟩
    simp [hc]

@[simp] theorem untimed_untimed (s : State) : untimed (untimed s) = untimed s := rfl

/-- The cost of an instruction is a matter of timing. -/
@[simp] theorem untimed_charge (k : Kind) (o : Operand) (extra : Nat) (s : State) :
    untimed (charge k o extra s) = untimed s := rfl

@[simp] theorem untimed_retire (k : Kind) (o : Operand) (extra : Nat) (s : State) :
    untimed (retire k o extra s) = advance o (untimed s) := rfl

@[simp] theorem untimed_p (s : State) : (untimed s).p = s.p := rfl
@[simp] theorem untimed_pc (s : State) : (untimed s).pc = s.pc := rfl
@[simp] theorem untimed_carry (s : State) : (untimed s).carry = s.carry := rfl
@[simp] theorem memRead_untimed (s : State) (a : Word) : memRead (untimed s) a = memRead s a := rfl
@[simp] theorem setC_untimed (b : Bool) (s : State) : setC b (untimed s) = untimed (setC b s) := rfl
@[simp] theorem setZN_untimed (v : Byte) (s : State) : setZN v (untimed s) = untimed (setZN v s) := rfl

@[simp] theorem memWrite_untimed (a : Word) (v : Byte) (s : State) :
    memWrite a v (untimed s) = untimed (memWrite a v s) := by
  unfold memWrite
  show (match locate s.cfg.prgBanks a with | none => _ | some k => _) = _
  cases locate s.cfg.prgBanks a <;> rfl

theorem push8_untimed (v : Byte) (s : State) : push8 v (untimed s) = untimed (push8 v s) := by
  show { memWrite (stackAddr s.sp) v (untimed s) with sp := s.sp - 1 } = _
  rw [memWrite_untimed]
  rfl

theorem push16_untimed (w : Word) (s : State) : push16 w (untimed s) = untimed (push16 w s) := by
  unfold push16
  rw [push8_untimed, push8_untimed]

theorem enterException_untimed (ret : Word) (pushed newP : Byte) (vec : Word) (s : State) :
    enterException ret pushed newP vec (untimed s) = untimed (enterException ret pushed newP vec s) := by
  unfold enterException
  rw [push16_untimed, push8_untimed]
  rfl

theorem interruptEntry_untimed (vec : Word) (s : State) :
    untimed (interruptEntry vec (untimed s)) = untimed (interruptEntry vec s) := by
  unfold interruptEntry
  show untimed { enterException _ _ _ vec (untimed s) with owed := _ } = _
  rw [enterException_untimed]
  rfl

@[simp] theorem ea_untimed (m : MemOperand) (s : State) : ea m (untimed s) = ea m s := by
  cases m <;> rfl

@[simp] theorem operandByte_untimed (m : MemOperand) (s : State) : operandByte m (untimed s) = operandByte m s := by
  cases m <;> rfl

theorem ReadEffect.comm_untimed {k : Kind} {effect : Byte → State → State} (he : ReadEffect k effect) (v : Byte)
    (s : State) :
    effect v (untimed s) = untimed (effect v s) := by
  cases he <;> rfl

theorem ImpliedEffect.comm_untimed {k : Kind} {effect : State → State} (he : ImpliedEffect k effect) (s : State) :
    effect (untimed s) = untimed (effect s) := by
  cases he
  case pha => exact push8_untimed _ _
  case php => exact push8_untimed _ _
  all_goals rfl

theorem BranchTaken.of_untimed {k : Kind} {taken : State → Bool} (ht : BranchTaken k taken) (s : State) :
    taken (untimed s) = taken s := by
  cases ht <;> rfl

theorem shiftMem_untimed (k : Kind) (op : ShiftOp) (m : MemOperand) (s : State) :
    untimed (shiftMem k op m (untimed s)) = untimed (shiftMem k op m s) := by
  simp [shiftMem]

theorem countMem_untimed (k : Kind) (result : Byte → Byte) (m : MemOperand) (s : State) :
    untimed (countMem k result m (untimed s)) = untimed (countMem k result m s) := by
  simp [countMem]

theorem storeInstr_untimed (k : Kind) (reg : Byte) (m : MemOperand) (s : State) :
    untimed (storeInstr k reg m (untimed s)) = untimed (storeInstr k reg m s) := by
  unfold storeInstr
  rw [ea_untimed, memWrite_untimed, untimed_retire, untimed_retire]
  show advance _ (untimed (if s.cfg.storeSetsNZ then _ else _)) = _
  cases s.cfg.storeSetsNZ <;> rfl

/-- What a branch does but for its cost: PC moves by the offset when it is taken (R190). -/
theorem branch_untimed (k : Kind) (taken : Bool) (off : Byte) (s : State) :
    untimed (branch k taken off (untimed s)) = untimed (branch k taken off s) := by
  cases taken <;> rfl

/-- A state untimed before it runs comes out the same but for timing, whatever the instruction. -/
theorem Meaning.after_untimed {k : Kind} {o : Operand} {f : State → State} (hf : Meaning k o f) (s : State) :
    untimed (f (untimed s)) = untimed (f s) := by
  cases hf with
  | read m he =>
    unfold readInstr
    rw [operandByte_untimed, he.comm_untimed, untimed_retire, untimed_retire]
    rfl
  | implied he =>
    unfold impliedInstr
    rw [he.comm_untimed, untimed_retire, untimed_retire]
    rfl
  | shiftAcc _ => rfl
  | shiftMem m _ => exact shiftMem_untimed _ _ m s
  | inc m => exact countMem_untimed _ _ m s
  | dec m => exact countMem_untimed _ _ m s
  | sta m => exact storeInstr_untimed _ _ m s
  | stx m => exact storeInstr_untimed _ _ m s
  | sty m => exact storeInstr_untimed _ _ m s
  | branch off ht =>
    simp only [ht.of_untimed]
    exact branch_untimed _ _ off s
  | jmp m => exact congrArg (fun target => untimed { s with pc := target }) (ea_untimed m s)
  | jsr addr =>
    unfold jumpSubroutine
    rw [push16_untimed]
    rfl
  | rts => rfl
  | rti => rfl
  | brk =>
    simp only [softwareBreak, enterException_untimed]
    rfl
  | sentinel opcode => rfl

/-- A boundary answers a next state, and from the state untimed the same but for timing (R268). -/
theorem boundary_untimed (s : State) :
    ∃ t u, boundary s = .next t ∧ boundary (untimed s) = .next u ∧ untimed u = untimed t := by
  by_cases hn : s.nmiPending = true
  · exact ⟨_, _, if_pos hn, if_pos hn, interruptEntry_untimed nmiVector { s with nmiPending := false }⟩
  · by_cases hi : irqDue s = true
    · exact ⟨_, _, (if_neg hn).trans (if_pos hi), (if_neg hn).trans (if_pos hi), interruptEntry_untimed irqVector s⟩
    · obtain ⟨f, hf, meaning⟩ := exec_meaning (fetch s)
      exact ⟨f s, f (untimed s), (if_neg hn).trans ((if_neg hi).trans (hf s)),
        (if_neg hn).trans ((if_neg hi).trans (hf (untimed s))), meaning.after_untimed s⟩

/-- Settles O54: two states that agree but for timing are one state untimed, from which a boundary leaves what it leaves from
either. -/
theorem architectureIndependentOfTiming : Obligations.ArchitectureIndependentOfTiming := by
  intro s t h
  obtain ⟨s', u, hs, hu, su⟩ := boundary_untimed s
  obtain ⟨t', u', ht, hu', tu⟩ := boundary_untimed t
  rw [← (agreesButTiming_iff s t).mp h, hu] at hu'
  cases hu'
  exact ⟨s', t', hs, ht, (agreesButTiming_iff s' t').mpr (su.symm.trans tu)⟩

end Sys2Proof.Machine
end

section
/-! PROOF. What no instruction sees or writes (O55): every meaning commutes with a change of the elapsed cycles, the NMI latch
and the IRQ line, and all but the sentinel's keep the control state. -/

namespace Sys2Proof.Machine

open Sys2Proof.Safety

section
variable (cycles : Nat) (nmi irq : Bool)

theorem memWrite_withControl (a : Word) (v : Byte) (s : State) :
    memWrite a v (withControl cycles nmi irq s) = withControl cycles nmi irq (memWrite a v s) := by
  unfold memWrite
  show (match locate s.cfg.prgBanks a with | none => _ | some k => _) = _
  cases locate s.cfg.prgBanks a <;> rfl

theorem push8_withControl (v : Byte) (s : State) :
    push8 v (withControl cycles nmi irq s) = withControl cycles nmi irq (push8 v s) := by
  show { memWrite (stackAddr s.sp) v (withControl cycles nmi irq s) with sp := s.sp - 1 } = _
  rw [memWrite_withControl]
  rfl

theorem push16_withControl (w : Word) (s : State) :
    push16 w (withControl cycles nmi irq s) = withControl cycles nmi irq (push16 w s) := by
  unfold push16
  rw [push8_withControl, push8_withControl]

theorem enterException_withControl (ret : Word) (pushed newP : Byte) (vec : Word) (s : State) :
    enterException ret pushed newP vec (withControl cycles nmi irq s) =
      withControl cycles nmi irq (enterException ret pushed newP vec s) := by
  unfold enterException
  rw [push16_withControl, push8_withControl]
  rfl

theorem ea_withControl (m : MemOperand) (s : State) : ea m (withControl cycles nmi irq s) = ea m s := by
  cases m <;> rfl

theorem operandByte_withControl (m : MemOperand) (s : State) :
    operandByte m (withControl cycles nmi irq s) = operandByte m s := by
  cases m <;> rfl

theorem readExtra_withControl (m : MemOperand) (s : State) :
    readExtra m (withControl cycles nmi irq s) = readExtra m s := by
  cases m <;> rfl

theorem ReadEffect.comm_withControl {k : Kind} {effect : Byte → State → State} (he : ReadEffect k effect) (v : Byte)
    (s : State) : effect v (withControl cycles nmi irq s) = withControl cycles nmi irq (effect v s) := by
  cases he <;> rfl

theorem ImpliedEffect.comm_withControl {k : Kind} {effect : State → State} (he : ImpliedEffect k effect) (s : State) :
    effect (withControl cycles nmi irq s) = withControl cycles nmi irq (effect s) := by
  cases he
  case pha => exact push8_withControl _ _ _ _ _
  case php => exact push8_withControl _ _ _ _ _
  all_goals rfl

theorem BranchTaken.of_withControl {k : Kind} {taken : State → Bool} (ht : BranchTaken k taken) (s : State) :
    taken (withControl cycles nmi irq s) = taken s := by
  cases ht <;> rfl

theorem retire_withControl (k : Kind) (o : Operand) (extra : Nat) (s : State) :
    retire k o extra (withControl cycles nmi irq s) = withControl cycles nmi irq (retire k o extra s) := rfl

theorem setC_withControl (b : Bool) (s : State) :
    setC b (withControl cycles nmi irq s) = withControl cycles nmi irq (setC b s) := rfl

theorem setZN_withControl (v : Byte) (s : State) :
    setZN v (withControl cycles nmi irq s) = withControl cycles nmi irq (setZN v s) := rfl

theorem memRead_withControl (a : Word) (s : State) : memRead (withControl cycles nmi irq s) a = memRead s a := rfl

theorem carry_withControl (s : State) : (withControl cycles nmi irq s).carry = s.carry := rfl

theorem shiftMem_withControl (k : Kind) (op : ShiftOp) (m : MemOperand) (s : State) :
    shiftMem k op m (withControl cycles nmi irq s) = withControl cycles nmi irq (shiftMem k op m s) := by
  simp only [shiftMem, ea_withControl, memRead_withControl, carry_withControl, setC_withControl, setZN_withControl,
    memWrite_withControl, retire_withControl]

theorem countMem_withControl (k : Kind) (result : Byte → Byte) (m : MemOperand) (s : State) :
    countMem k result m (withControl cycles nmi irq s) = withControl cycles nmi irq (countMem k result m s) := by
  simp only [countMem, ea_withControl, memRead_withControl, setZN_withControl, memWrite_withControl, retire_withControl]

theorem storeInstr_withControl (k : Kind) (reg : Byte) (m : MemOperand) (s : State) :
    storeInstr k reg m (withControl cycles nmi irq s) = withControl cycles nmi irq (storeInstr k reg m s) := by
  unfold storeInstr
  rw [ea_withControl, memWrite_withControl]
  show retire _ _ _ (if s.cfg.storeSetsNZ then _ else _) = _
  cases s.cfg.storeSetsNZ <;> rfl

theorem branch_withControl (k : Kind) (taken : Bool) (off : Byte) (s : State) :
    branch k taken off (withControl cycles nmi irq s) = withControl cycles nmi irq (branch k taken off s) := by
  cases taken <;> rfl

/-- No instruction sees the elapsed cycles, the NMI latch or the IRQ line, or writes them. -/
theorem Meaning.comm_withControl {k : Kind} {o : Operand} {f : State → State} (hf : Meaning k o f) (s : State) :
    f (withControl cycles nmi irq s) = withControl cycles nmi irq (f s) := by
  cases hf with
  | read m he =>
    unfold readInstr
    rw [operandByte_withControl, readExtra_withControl, he.comm_withControl, retire_withControl]
  | implied he =>
    unfold impliedInstr
    rw [he.comm_withControl, retire_withControl]
  | shiftAcc _ => rfl
  | shiftMem m _ => exact shiftMem_withControl _ _ _ _ _ m s
  | inc m => exact countMem_withControl _ _ _ _ _ m s
  | dec m => exact countMem_withControl _ _ _ _ _ m s
  | sta m => exact storeInstr_withControl _ _ _ _ _ m s
  | stx m => exact storeInstr_withControl _ _ _ _ _ m s
  | sty m => exact storeInstr_withControl _ _ _ _ _ m s
  | branch off ht =>
    simp only [ht.of_withControl]
    exact branch_withControl _ _ _ _ _ off s
  | jmp m =>
    unfold Machine.jmp
    rw [ea_withControl]
    rfl
  | jsr addr =>
    simp only [jumpSubroutine, push16_withControl]
    rfl
  | rts => rfl
  | rti => rfl
  | brk =>
    simp only [softwareBreak, enterException_withControl]
    rfl
  | sentinel opcode => rfl

end

theorem ReadEffect.keepsControl {k : Kind} {effect : Byte → State → State} (he : ReadEffect k effect) (v : Byte)
    (s : State) : KeepsControl s (effect v s) := by
  cases he <;> simp [KeepsControl]

theorem ImpliedEffect.keepsControl {k : Kind} {effect : State → State} (he : ImpliedEffect k effect) (s : State) :
    KeepsControl s (effect s) := by
  cases he <;> simp [KeepsControl]

theorem shiftMem_keepsControl (k : Kind) (op : ShiftOp) (m : MemOperand) (s : State) :
    KeepsControl s (shiftMem k op m s) := by
  simp [KeepsControl, shiftMem]

theorem countMem_keepsControl (k : Kind) (result : Byte → Byte) (m : MemOperand) (s : State) :
    KeepsControl s (countMem k result m s) := by
  simp [KeepsControl, countMem]

theorem storeInstr_keepsControl (k : Kind) (reg : Byte) (m : MemOperand) (s : State) :
    KeepsControl s (storeInstr k reg m s) := by
  unfold storeInstr
  split <;> simp [KeepsControl]

theorem branch_keepsControl (k : Kind) (taken : Bool) (off : Byte) (s : State) :
    KeepsControl s (branch k taken off s) := by
  cases taken <;> exact ⟨rfl, rfl, rfl, rfl, rfl⟩

/-- Every instruction but the sentinel keeps the control state and the parameters. -/
theorem Meaning.keepsControl {k : Kind} {o : Operand} {f : State → State} (hf : Meaning k o f) (hk : k ≠ .noInstruction)
    (s : State) : KeepsControl s (f s) := by
  cases hf with
  | read m he => exact he.keepsControl _ s
  | implied he => exact he.keepsControl s
  | shiftAcc _ => simp [KeepsControl, Machine.shiftAcc]
  | shiftMem m _ => exact shiftMem_keepsControl _ _ m s
  | inc m => exact countMem_keepsControl _ _ m s
  | dec m => exact countMem_keepsControl _ _ m s
  | sta m => exact storeInstr_keepsControl _ _ m s
  | stx m => exact storeInstr_keepsControl _ _ m s
  | sty m => exact storeInstr_keepsControl _ _ m s
  | branch off _ => exact branch_keepsControl _ _ off s
  | jmp m => exact ⟨rfl, rfl, rfl, rfl, rfl⟩
  | jsr addr => simp [KeepsControl, jumpSubroutine]
  | rts => exact ⟨rfl, rfl, rfl, rfl, rfl⟩
  | rti => simp [KeepsControl]
  | brk => simp [KeepsControl, softwareBreak]
  | sentinel opcode => exact absurd rfl hk

/-- What an instruction does to the control state: nothing, but for the sentinel, which writes `run` (R38, R261). -/
theorem exec_control {i : Instr} {s t : State} (h : exec i s = .next t) :
    t.cycles = s.cycles ∧ t.nmiPending = s.nmiPending ∧ t.irqLine = s.irqLine ∧ t.cfg = s.cfg ∧
      (t.run ≠ s.run → ∃ op, i = .sentinel op ∧ t.run = .halted (.fatalDecode s.pc op)) := by
  by_cases hk : i.kind = .noInstruction
  · have sentinel := eq_sentinel_of_kind hk
    rw [sentinel] at h
    cases h
    exact ⟨rfl, rfl, rfl, rfl, fun _ => ⟨_, sentinel, rfl⟩⟩
  · obtain ⟨f, run, meaning⟩ := exec_meaning i
    cases (run s).symm.trans h
    obtain ⟨hc, hn, hi, hr, hcfg⟩ := meaning.keepsControl hk s
    exact ⟨hc, hn, hi, hcfg, fun h => absurd hr h⟩

/-- Settles O55: every meaning commutes with `withControl`, and `exec_control` says what it keeps. -/
theorem controlStateInvisible : Obligations.ControlStateInvisible := by
  intro i s t cycles nmi irq h
  refine ⟨?_, exec_control h⟩
  obtain ⟨f, run, meaning⟩ := exec_meaning i
  cases (run s).symm.trans h
  exact (run _).trans (congrArg _ (meaning.comm_withControl cycles nmi irq s))

end Sys2Proof.Machine
end

section
/-! PROOF. PRG, unmapped addresses and words in memory (O9, O10, O11): the location an address reaches decides what is read
and where a write is seen. -/

namespace Sys2Proof.Machine

open Sys2Proof.Safety

theorem locate_prg (banks : Banks) {a : Word} (ha : 0x8000 ≤ a.toNat) :
    locate banks a = some (0x8000 + prgOffset banks a) := by
  unfold locate
  rw [if_neg (by omega), if_neg (by omega)]

theorem locate_unmapped (banks : Banks) {a : Word} (ha : 0x2000 ≤ a.toNat) (ha' : a.toNat < 0x8000) :
    locate banks a = none := by
  unfold locate
  rw [if_neg (by omega), if_pos ha']

theorem memRead_of_locate {s : State} {a : Word} {k : Nat} (h : locate s.cfg.prgBanks a = some k) :
    memRead s a = s.mem.get k := by
  rw [memRead, h]

theorem memRead_of_unmapped {s : State} {a : Word} (h : locate s.cfg.prgBanks a = none) : memRead s a = 0x00#8 := by
  rw [memRead, h]

/-- Two PRG addresses reach the same location when they select the same byte of PRG (R54). -/
theorem locate_prg_eq_iff (banks : Banks) {a b : Word} (ha : 0x8000 ≤ a.toNat) (hb : 0x8000 ≤ b.toNat) :
    locate banks b = locate banks a ↔ prgOffset banks a = prgOffset banks b := by
  rw [locate_prg banks ha, locate_prg banks hb, Option.some.injEq, Nat.add_left_cancel_iff, eq_comm]

/-- No address below 0x8000 reaches a byte of PRG (R52). -/
theorem locate_belowPrg_ne_locate_prg (banks : Banks) {a b : Word} (ha : 0x8000 ≤ a.toNat) (hb : b.toNat < 0x8000) :
    locate banks b ≠ locate banks a := by
  rw [locate_prg banks ha]
  by_cases hr : b.toNat < 0x2000
  · rw [locate_ram banks hr, Ne, Option.some.injEq]
    omega
  · rw [locate_unmapped banks (Nat.not_lt.mp hr) hb]
    nofun

/-- A write to PRG is read back at every address that selects that byte, and at no other address of PRG (R55). -/
theorem memRead_memWrite_prg (s : State) {a b : Word} (v : Byte) (ha : 0x8000 ≤ a.toNat) (hb : 0x8000 ≤ b.toNat) :
    memRead (memWrite a v s) b =
      if prgOffset s.cfg.prgBanks a = prgOffset s.cfg.prgBanks b then v else memRead s b := by
  have mapped : (locate s.cfg.prgBanks a).isSome = true := by rw [locate_prg _ ha]; rfl
  rw [memRead_memWrite]
  simp only [locate_prg_eq_iff _ ha hb, mapped, and_true]

theorem memRead_memWrite_belowPrg (s : State) {a b : Word} (v : Byte) (ha : 0x8000 ≤ a.toNat) (hb : b.toNat < 0x8000) :
    memRead (memWrite a v s) b = memRead s b := by
  rw [memRead_memWrite, if_neg fun h => locate_belowPrg_ne_locate_prg _ ha hb h.1]

/-- With two banks every address of PRG selects a byte of its own (R54). -/
theorem prgOffset_two_eq_iff {a b : Word} (ha : 0x8000 ≤ a.toNat) (hb : 0x8000 ≤ b.toNat) :
    prgOffset .two a = prgOffset .two b ↔ a = b := by
  rw [← BitVec.toNat_inj]
  show a.toNat - 0x8000 = b.toNat - 0x8000 ↔ _
  omega

/-- Settles O9: PRG addresses compare by `prgOffset`, which is the rule's modulus with one bank and injective with two. -/
theorem prgRomMapsAndWrites : Obligations.PrgRomMapsAndWrites := by
  refine fun s a b v ha => ⟨fun hb h1 => ⟨fun same => ?_, ?_⟩, fun hb h2 => ?_, memRead_memWrite_belowPrg s v ha⟩
  · apply memRead_congr_locate
    rw [h1]
    exact (locate_prg_eq_iff .one hb ha).mpr same.symm
  · rw [memRead_memWrite_prg s v ha hb, h1]
    rfl
  · rw [memRead_memWrite_prg s v ha hb, h2]
    simp only [prgOffset_two_eq_iff ha hb]

/-- Settles O10: an unmapped address reaches no location. -/
theorem unmappedReadsZeroDropsWrites : Obligations.UnmappedReadsZeroDropsWrites := by
  intro s a v ha ha'
  have none := locate_unmapped s.cfg.prgBanks ha ha'
  simp only [memRead, memWrite, readWarning, writeWarning, none, and_self]

theorem toNat_memRead16 (s : State) (a : Word) :
    (memRead16 s a).toNat = (memRead s a).toNat + 256 * (memRead s (a + 1)).toNat := by
  rw [memRead16, toNat_cat, Nat.mul_comm, Nat.add_comm]

/-- Settles O11: the word is {high, low}, and 0xFFFF + 1 is 0x0000. -/
theorem wordReadsLittleEndian : Obligations.WordReadsLittleEndian := by
  refine fun s a => ⟨toNat_memRead16 s a, ?_⟩
  rintro rfl
  exact toNat_memRead16 s _

end Sys2Proof.Machine
end

section
/-! PROOF. The stack (O12, O13, O14): the stack address and S in plain arithmetic, and pushes in a row. -/

namespace Sys2Proof.Machine

open Sys2Proof.Safety

theorem stackAddr_eq_ofNat (sp : Byte) : stackAddr sp = BitVec.ofNat 16 (0x0100 + sp.toNat) := by
  rw [← BitVec.toNat_inj]
  simp [stackAddr, zext16]

/-- A sum modulo 256 in plain arithmetic is the sum of bytes. -/
theorem ofNat_toNat_add (v : Byte) (n : Nat) : BitVec.ofNat 8 (v.toNat + n) = v + BitVec.ofNat 8 n := by
  rw [BitVec.ofNat_add, BitVec.ofNat_toNat, BitVec.setWidth_eq]

theorem ofNat_toNat_add_255 (v : Byte) : BitVec.ofNat 8 (v.toNat + 255) = v - 1 := by
  rw [ofNat_toNat_add]
  bv_omega

theorem toNat_add_one (v : Byte) : (v + 1).toNat = (v.toNat + 1) % 256 := BitVec.toNat_add v 1

theorem toNat_sub_one (v : Byte) : (v - 1).toNat = (v.toNat + 255) % 256 := by
  bv_omega

/-- Settles O12: one store at 0x0100 + S, and S counted modulo 256. -/
theorem pushAndPullByte : Obligations.PushAndPullByte := by
  intro s v
  rw [← toNat_add_one, ← stackAddr_eq_ofNat, ← stackAddr_eq_ofNat, ofNat_toNat_add_255, ofNat_toNat_add]
  refine ⟨rfl, storesByte_push8 v s, ?_, rfl, rfl, pullByte_push8 v s, ?_⟩
  · rw [memRead_push8, if_pos rfl]
  · rw [afterPull_sp, push8_sp, BitVec.sub_add_cancel]

theorem memRead_push16_high (w : Word) (s : State) : memRead (push16 w s) (stackAddr s.sp) = hi w := by
  rw [push16, memRead_push8, if_neg, memRead_push8, if_pos rfl]
  rw [push8_sp]
  bv_omega

theorem memRead_push16_low (w : Word) (s : State) : memRead (push16 w s) (stackAddr (s.sp - 1)) = lo w := by
  rw [push16, memRead_push8, if_pos (push8_sp _ _).symm]

/-- Settles O13: two pushes, the high byte first. -/
theorem pushAndPullWord : Obligations.PushAndPullWord := by
  intro s w
  rw [← toNat_sub_one, ← stackAddr_eq_ofNat, ← stackAddr_eq_ofNat, ← hi_eq_ofNat, ← lo_eq_ofNat]
  refine ⟨memRead_push16_high w s, memRead_push16_low w s, ?_, pullWord_push16 w s, ?_⟩
  · rw [push16_sp, sub_one_sub_one]
  · rw [afterPull16_sp, push16_sp, sub_one_add_one_twice]

/-- Pushes lower S by their number modulo 256 (R24). -/
theorem foldl_push8_sp (vs : List Byte) (s : State) :
    (vs.foldl (fun t v => push8 v t) s).sp = s.sp - BitVec.ofNat 8 vs.length := by
  induction vs generalizing s with
  | nil => exact (BitVec.sub_zero _).symm
  | cons v vs ih =>
    rw [List.foldl_cons, ih, push8_sp, List.length_cons, BitVec.ofNat_add]
    bv_omega

/-- Pushes are seen in the stack page and its mirrors alone (R24). -/
theorem memRead_foldl_push8 (vs : List Byte) (s : State) {b : Word}
    (hb : ∀ sp : Byte, sameByte s.cfg.prgBanks (stackAddr sp) b = false) :
    memRead (vs.foldl (fun t v => push8 v t) s) b = memRead s b := by
  induction vs generalizing s with
  | nil => rfl
  | cons v vs ih =>
    rw [List.foldl_cons, ih _ (by rwa [push8_cfg]), storesByte_push8 v s b, hb, if_neg Bool.false_ne_true]

/-- Settles O14, by induction over the list of pushes. -/
theorem pushesWrapAfter256 : Obligations.PushesWrapAfter256 := by
  refine fun vs s => ⟨foldl_push8_sp vs s, fun h => ?_, fun b hb => memRead_foldl_push8 vs s fun sp => ?_⟩
  · rw [foldl_push8_sp, h]
    exact BitVec.sub_zero _
  · rw [stackAddr_eq_ofNat]
    exact hb sp

end Sys2Proof.Machine
end

section
/-! PROOF. The ALU (O15 to O20): ADC and SBC are one addition of a byte, the logic kinds write A and SetZN, and BIT and the
comparisons write flags alone. -/

namespace Sys2Proof.Machine

open Sys2Proof.Safety

/-- An instruction has the mode and opcode of one of its kind's cells in the opcode ROM (R84). -/
theorem encodedAs_of_rom {i : Instr} {k : Kind} {codes : List (Mode × Byte)} (hk : i.kind = k)
    (h : k ≠ .noInstruction ∧ ∀ op : Byte, (romLookup op 0 0).kind = k → ((romLookup op 0 0).mode, op) ∈ codes) :
    EncodedAs i codes := by
  obtain ⟨hn, cells⟩ := h
  obtain ⟨b1, b2, cell, -⟩ := romLookup_of i (hk ▸ hn)
  have listed := cells i.opcode (by rw [← romLookup_kind _ b1 b2, cell, hk])
  rwa [← romLookup_mode _ b1 b2, cell] at listed

/-- Only the indexed modes that can cross a page cost a read-class instruction an extra cycle (R150). -/
theorem readExtra_eq_zero {m : MemOperand} (h : m.mode ∈ ([.imm, .zp, .abs] : List Mode)) (s : State) :
    readExtra m s = 0 := by
  cases m
  case imm | zp | abs => rfl
  all_goals nomatch h

theorem ofNat_mod_256 (n : Nat) : BitVec.ofNat 8 (n % 256) = BitVec.ofNat 8 n := by
  rw [← BitVec.toNat_inj, BitVec.toNat_ofNat, BitVec.toNat_ofNat, Nat.mod_mod]

/-- What an addition of the byte v with carry leaves, the shared effect of ADC and SBC (R151, R152). -/
theorem completes_of_addWithCarry {i : Instr} {k : Kind} {o : Operand} {s : State} {extra : Nat} {v : Byte}
    (hk : i.kind = k) (ho : i.operand = o) (run : exec i s = .next (retire k o extra (addWithCarry v s))) :
    Completes i s extra (fun t =>
      RegsAre t (BitVec.ofNat 8 (carrySum s.a v s.carry % 256)) s.x s.y s.sp ∧
      t.carry = decide (carrySum s.a v s.carry > 0xFF) ∧ t.overflow = signedOverflow s.a v t.a ∧
      FlagsZN t t.a ∧ KeepsFlags 0xC3#8 s t ∧ KeepsMemory s t) := by
  apply completes_of_retire i k o extra s _ _ run hk ho ⟨rfl, rfl, rfl, rfl, rfl, rfl⟩
  refine ⟨⟨(ofNat_mod_256 _).symm, rfl, rfl, rfl⟩, ?_, ?_, flagsZN_of_p rfl, ?_, keepsMemory_of_eq rfl rfl⟩
  · simp [State.carry]
  · simp [State.overflow]
  · simp only [KeepsFlags, retire_p, addWithCarry_p]
    iterate 4 rw [setBit_outside _ _ _ _ (by omega) (by decide)]

/-- Settles O15: ADC adds its operand byte. -/
theorem adcResult : Obligations.AdcResult := by
  intro i s hk
  obtain ⟨m, ho, run⟩ := exec_of_readEffect .adc hk
  exact ⟨m, ho, encodedAs_of_rom hk (by decide +kernel), completes_of_addWithCarry hk ho (run s)⟩

theorem toNat_complement (v : Byte) : (v ^^^ 0xFF#8).toNat = 255 - v.toNat := by
  revert v
  decide

/-- Adding the complement with carry subtracts the byte and the borrow (R152). -/
theorem ofNat_carrySum_complement (a v : Byte) (c : Bool) :
    BitVec.ofNat 8 (carrySum a (v ^^^ 0xFF#8) c % 256) = a - v - BitVec.ofNat 8 (1 - c.toNat) := by
  have ha := a.isLt
  have hv := v.isLt
  rw [← BitVec.toNat_inj, carrySum, toNat_complement]
  cases c <;> simp <;> omega

/-- The carry out of that addition is the inverted borrow (R152). -/
theorem carrySum_complement_gt (a v : Byte) (c : Bool) :
    carrySum a (v ^^^ 0xFF#8) c > 0xFF ↔ a.toNat ≥ v.toNat + (1 - c.toNat) := by
  have hv := v.isLt
  rw [carrySum, toNat_complement]
  cases c <;> simp <;> omega

/-- Settles O17: SBC adds the complement of its operand byte. -/
theorem sbcResult : Obligations.SbcResult := by
  intro i s hk
  obtain ⟨m, ho, run⟩ := exec_of_readEffect .sbc hk
  refine ⟨m, ho, encodedAs_of_rom hk (by decide +kernel), (completes_of_addWithCarry hk ho (run s)).mono ?_⟩
  rintro t ⟨⟨ha, regs⟩, hc, rest⟩
  refine ⟨⟨ha, regs⟩, hc, ?_, ?_, rest⟩
  · rw [ha, ofNat_carrySum_complement]
  · rw [hc, decide_eq_decide]
    exact carrySum_complement_gt _ _ _

theorem and_0x80_ne_zero (v : Byte) : (v &&& 0x80#8 != 0#8) = v.getLsbD 7 := by
  revert v
  decide

/-- The V formula in terms of signs: the operands agree in sign and the result does not. -/
theorem signedOverflow_eq (a m r : Byte) :
    signedOverflow a m r =
      decide ((128 ≤ a.toNat ↔ 128 ≤ m.toNat) ∧ ¬ (128 ≤ a.toNat ↔ 128 ≤ r.toNat)) := by
  rw [signedOverflow, and_0x80_ne_zero, BitVec.getLsbD_and, BitVec.getLsbD_not, BitVec.getLsbD_xor, BitVec.getLsbD_xor,
    getLsbD_seven, getLsbD_seven, getLsbD_seven]
  by_cases ha : 128 ≤ a.toNat <;> by_cases hm : 128 ≤ m.toNat <;> by_cases hr : 128 ≤ r.toNat <;> simp [ha, hm, hr]

theorem toInt_eq_of_sign (v : Byte) : v.toInt = if 128 ≤ v.toNat then (v.toNat : Int) - 256 else v.toNat := by
  rw [BitVec.toInt_eq_toNat_cond]
  split <;> split <;> omega

/-- The V formula says that the exact signed sum is no byte, and without overflow the result is that sum. -/
theorem signedOverflow_carrySum (a m : Byte) (c : Bool) :
    (signedOverflow a m (BitVec.ofNat 8 (carrySum a m c)) =
      decide (a.toInt + m.toInt + (c.toNat : Int) < -128 ∨ 127 < a.toInt + m.toInt + (c.toNat : Int))) ∧
    (signedOverflow a m (BitVec.ofNat 8 (carrySum a m c)) = false →
      (BitVec.ofNat 8 (carrySum a m c)).toInt = a.toInt + m.toInt + (c.toNat : Int)) := by
  have ha := a.isLt
  have hm := m.isLt
  have hc : c.toNat ≤ 1 := Bool.toNat_le c
  have hr : (BitVec.ofNat 8 (carrySum a m c)).toNat = (a.toNat + m.toNat + c.toNat) % 256 := BitVec.toNat_ofNat _ _
  generalize BitVec.ofNat 8 (carrySum a m c) = r at hr
  rw [signedOverflow_eq, toInt_eq_of_sign a, toInt_eq_of_sign m, toInt_eq_of_sign r]
  simp only [decide_eq_decide, decide_eq_false_iff_not]
  split <;> split <;> split <;> omega

theorem toInt_complement (v : Byte) : (v ^^^ 0xFF#8).toInt = -1 - v.toInt := by
  revert v
  decide

/-- What an addition of the byte v with carry does to V, and to A where V is 0. -/
theorem overflow_of_addWithCarry {i : Instr} {k : Kind} {o : Operand} {s : State} {extra : Nat} {v : Byte}
    (run : exec i s = .next (retire k o extra (addWithCarry v s))) :
    ∃ t, exec i s = .next t ∧
      t.overflow = decide (s.a.toInt + v.toInt + (s.carry.toNat : Int) < -128 ∨
        127 < s.a.toInt + v.toInt + (s.carry.toNat : Int)) ∧
      (t.overflow = false → t.a.toInt = s.a.toInt + v.toInt + (s.carry.toNat : Int)) := by
  have v_flag : (retire k o extra (addWithCarry v s)).overflow =
      signedOverflow s.a v (BitVec.ofNat 8 (carrySum s.a v s.carry)) := by simp [State.overflow]
  refine ⟨_, run, ?_⟩
  rw [v_flag]
  exact signedOverflow_carrySum s.a v s.carry

/-- Settles O16: ADC and SBC set V by the one formula, for SBC of the complement, whose signed value is −1 − M. -/
theorem overflowIsSignedOverflow : Obligations.OverflowIsSignedOverflow := by
  refine ⟨fun i s hk => ?adc, fun i s hk => ?sbc⟩
  case adc =>
    obtain ⟨m, ho, run⟩ := exec_of_readEffect .adc hk
    obtain ⟨t, ht, result⟩ := overflow_of_addWithCarry (run s)
    exact ⟨m, t, ho, ht, result⟩
  case sbc =>
    obtain ⟨m, ho, run⟩ := exec_of_readEffect .sbc hk
    obtain ⟨t, ht, result⟩ := overflow_of_addWithCarry (run s)
    have difference : s.a.toInt + (operandByte m s ^^^ 0xFF#8).toInt + (s.carry.toNat : Int) =
        s.a.toInt - (operandByte m s).toInt - (1 - (s.carry.toNat : Int)) := by
      rw [toInt_complement]
      ring
    exact ⟨m, t, ho, ht, difference ▸ result⟩

/-- What AND, ORA and EOR leave: A combined with the operand byte, then SetZN (R153 to R155). -/
theorem completes_of_logic {k : Kind} {f : Byte → Byte → Byte} (he : ReadEffect k (fun v s => setA (f s.a v) s))
    {i : Instr}    (hk : i.kind = k) (s : State) :
    ∃ m, i.operand = .mem m ∧ Completes i s (if crossed m s then 1 else 0) (fun t =>
      RegsAre t (f s.a (operandByte m s)) s.x s.y s.sp ∧ FlagsZN t t.a ∧ KeepsFlags 0x82#8 s t ∧ KeepsMemory s t) := by
  obtain ⟨m, ho, run⟩ := exec_of_readEffect he hk
  exact ⟨m, ho, (completes_of_setZN hk ho (run s)).mono
    fun t ⟨⟨ha, regs⟩, zn, frame⟩ => ⟨⟨ha, regs⟩, ha ▸ zn, frame⟩⟩

/-- Settles O18: the three kinds differ in the operation on A alone. -/
theorem logicResults : Obligations.LogicResults := by
  refine ⟨fun i s hk => ?and, fun i s hk => ?ora, fun i s hk => ?eor⟩
  case and =>
    obtain ⟨m, ho, done⟩ := completes_of_logic .and hk s
    exact ⟨m, ho, encodedAs_of_rom hk (by decide +kernel), done⟩
  case ora =>
    obtain ⟨m, ho, done⟩ := completes_of_logic .ora hk s
    exact ⟨m, ho, encodedAs_of_rom hk (by decide +kernel), done⟩
  case eor =>
    obtain ⟨m, ho, done⟩ := completes_of_logic .eor hk s
    exact ⟨m, ho, encodedAs_of_rom hk (by decide +kernel), done⟩

theorem getLsbD_six (v : Byte) : v.getLsbD 6 = decide (64 ≤ v.toNat % 128) := by
  revert v
  decide

/-- The mode of an encoded instruction is one of those listed. -/
theorem mode_mem_of_encodedAs {i : Instr} {m : MemOperand} {codes : List (Mode × Byte)} (h : EncodedAs i codes)
    (ho : i.operand = .mem m) : m.mode ∈ codes.map Prod.fst := by
  have hm : i.mode = m.mode := congrArg Operand.mode ho
  exact hm ▸ List.mem_map_of_mem h

/-- Settles O19: neither form of BIT can cross a page. -/
theorem bitResult : Obligations.BitResult := by
  intro i s hk
  obtain ⟨m, ho, run⟩ := exec_of_readEffect .bit hk
  have encoded : EncodedAs i [(.zp, 0x24#8), (.abs, 0x2C#8)] := encodedAs_of_rom hk (by decide +kernel)
  have run := run s
  rw [readInstr, readExtra_eq_zero (List.mem_cons_of_mem _ (mode_mem_of_encodedAs encoded ho))] at run
  refine ⟨m, ho, encoded, ?_⟩
  apply completes_of_retire i .bit (.mem m) 0 s _ _ run hk ho ⟨rfl, rfl, rfl, rfl, rfl, rfl⟩
  refine ⟨⟨rfl, rfl, rfl, rfl⟩, ?_, ?_, ?_, ?_, keepsMemory_of_eq rfl rfl⟩
  · rw [State.zero, retire_p, bitFlags_p, beq_eq_decide]
    simp
  · rw [State.negative, retire_p, bitFlags_p, ← getLsbD_seven]
    simp
  · rw [State.overflow, retire_p, bitFlags_p, ← getLsbD_six]
    simp
  · simp only [KeepsFlags, retire_p, bitFlags_p]
    iterate 3 rw [setBit_outside _ _ _ _ (by omega) (by decide)]

/-- What a comparison leaves: C, Z and N, and nothing else (R157). -/
theorem completes_of_compareFlags {i : Instr} {k : Kind} {o : Operand} {s : State} {extra : Nat} {reg v : Byte}
    (hk : i.kind = k) (ho : i.operand = o) (run : exec i s = .next (retire k o extra (compareFlags reg v s))) :
    Completes i s extra (fun t =>
      RegsAre t s.a s.x s.y s.sp ∧ t.carry = decide (reg.toNat ≥ v.toNat) ∧
      FlagsZN t (reg - v) ∧ KeepsFlags 0x83#8 s t ∧ KeepsMemory s t) := by
  apply completes_of_retire i k o extra s _ _ run hk ho ⟨rfl, rfl, rfl, rfl, rfl, rfl⟩
  obtain ⟨hc, zn, kept⟩ := carry_flagsZN_keepsFlags (s := s) (t := retire k o extra (compareFlags reg v s)) rfl
  exact ⟨⟨rfl, rfl, rfl, rfl⟩, hc, zn, kept, keepsMemory_of_eq rfl rfl⟩

/-- Settles O20: the kinds differ in the register compared, and no form of CPX or CPY can cross a page. -/
theorem compareResults : Obligations.CompareResults := by
  refine ⟨fun i s hk => ?cmp, fun i s hk => ?cpx, fun i s hk => ?cpy⟩
  case cmp =>
    obtain ⟨m, ho, run⟩ := exec_of_readEffect .cmp hk
    exact ⟨m, ho, encodedAs_of_rom hk (by decide +kernel), completes_of_compareFlags hk ho (run s)⟩
  case cpx =>
    obtain ⟨m, ho, run⟩ := exec_of_readEffect .cpx hk
    have encoded : EncodedAs i [(.imm, 0xE0#8), (.zp, 0xE4#8), (.abs, 0xEC#8)] := encodedAs_of_rom hk (by decide +kernel)
    have done := completes_of_compareFlags hk ho (run s)
    rw [readExtra_eq_zero (mode_mem_of_encodedAs encoded ho)] at done
    exact ⟨m, ho, encoded, done⟩
  case cpy =>
    obtain ⟨m, ho, run⟩ := exec_of_readEffect .cpy hk
    have encoded : EncodedAs i [(.imm, 0xC0#8), (.zp, 0xC4#8), (.abs, 0xCC#8)] := encodedAs_of_rom hk (by decide +kernel)
    have done := completes_of_compareFlags hk ho (run s)
    rw [readExtra_eq_zero (mode_mem_of_encodedAs encoded ho)] at done
    exact ⟨m, ho, encoded, done⟩

end Sys2Proof.Machine
end

section
/-! PROOF. Shifts, rotates, counts and stores (O21 to O25, O36): one operand is read, and one byte, A or the one at ea, is
written. -/

namespace Sys2Proof.Machine

open Sys2Proof.Safety

theorem ShiftEffect.unique {k : Kind} {op op' : ShiftOp} (h : ShiftEffect k op) (h' : ShiftEffect k op') : op = op' := by
  cases h <;> cases h' <;> rfl

/-- Every instruction of a kind of shift works on A, or on the byte at its operand's address. -/
theorem exec_of_shiftEffect {i : Instr} {k : Kind} {op : ShiftOp} (he : ShiftEffect k op) (hk : i.kind = k) :
    (i.operand = .accumulator ∧ ∀ s, exec i s = .next (shiftAcc k op s)) ∨
    ∃ m, i.operand = .mem m ∧ ∀ s, exec i s = .next (shiftMem k op m s) := by
  obtain ⟨f, hf, meaning⟩ := exec_meaning i
  rw [hk] at meaning
  generalize i.operand = o at meaning ⊢
  cases meaning
  case shiftAcc he' => exact .inl ⟨rfl, he.unique he' ▸ hf⟩
  case shiftMem m he' => exact .inr ⟨m, rfl, he.unique he' ▸ hf⟩
  -- no other meaning is of a kind of shift
  case read hr => cases he <;> cases hr
  case implied hi => cases he <;> cases hi
  case branch ht => cases he <;> cases ht
  all_goals cases he

/-- The kinds whose meaning is a function of the operand that writes the byte at ea, shifts aside. -/
inductive MemWriter : Kind → (MemOperand → State → State) → Prop
  | inc : MemWriter .inc inc
  | dec : MemWriter .dec dec
  | sta : MemWriter .sta sta
  | stx : MemWriter .stx stx
  | sty : MemWriter .sty sty

theorem exec_of_memWriter {i : Instr} {k : Kind} {f : MemOperand → State → State} (hw : MemWriter k f) (hk : i.kind = k) :
    ∃ m, i.operand = .mem m ∧ ∀ s, exec i s = .next (f m s) := by
  obtain ⟨g, hg, meaning⟩ := exec_meaning i
  rw [hk] at meaning
  generalize i.operand = o at meaning ⊢
  cases hw <;> cases meaning
  case inc.inc m | dec.dec m | sta.sta m | stx.stx m | sty.sty m => exact ⟨m, rfl, hg⟩
  -- no other meaning is of such a kind
  all_goals next other => cases other

/-- A write from a state u with the memory of s is a write from s. -/
theorem storesByte_of_memWrite {a : Word} {v : Byte} {s t : State} (u : State) (hm : u.mem = s.mem) (hc : u.cfg = s.cfg)
    (ht : t.mem = (memWrite a v u).mem) (hc' : t.cfg = u.cfg) : StoresByte a v s t := by
  intro b
  rw [memRead_congr ht (hc'.trans (memWrite_cfg a v u).symm), storesByte_memWrite a v u b, hc, memRead_congr hm hc]

theorem fixedExtra_of_shiftEffect {k : Kind} {op : ShiftOp} (he : ShiftEffect k op) (m : Mode) :
    fixedExtra k m = shiftExtra m := by
  cases he <;> rfl

/-- What a shift or rotate leaves, of A or of memory (R170, R175). -/
theorem completes_of_shiftEffect {i : Instr} {k : Kind} {op : ShiftOp} (he : ShiftEffect k op) (hk : i.kind = k)
    (s : State) :
    Completes i s (shiftExtra i.mode) (fun t =>
      WritesBack i.operand (op.result (operandValue i.operand s) s.carry) s t ∧
      t.carry = op.carryOut (operandValue i.operand s) ∧
      FlagsZN t (op.result (operandValue i.operand s) s.carry) ∧ KeepsFlags 0x83#8 s t) := by
  obtain ⟨ho, run⟩ | ⟨m, ho, run⟩ := exec_of_shiftEffect he hk
  · rw [Instr.mode, ho]
    have run := run s
    rw [shiftAcc, fixedExtra_of_shiftEffect he] at run
    apply completes_of_retire i k .accumulator _ s _ _ run hk ho ⟨rfl, rfl, rfl, rfl, rfl, rfl⟩
    exact ⟨⟨⟨rfl, rfl, rfl, rfl⟩, keepsMemory_of_eq rfl rfl⟩, carry_flagsZN_keepsFlags rfl⟩
  · rw [Instr.mode, ho]
    have run := run s
    rw [shiftMem, fixedExtra_of_shiftEffect he] at run
    apply completes_of_retire i k (.mem m) _ s _ _ run hk ho (by simp [SamePcAndControl])
    refine ⟨⟨by simp [RegsAre], ?_⟩, ?_⟩
    · exact storesByte_of_memWrite (setZN _ (setC _ s)) rfl rfl rfl (memWrite_cfg _ _ _)
    · exact carry_flagsZN_keepsFlags (memWrite_p _ _ _)

theorem aslOp_result (v : Byte) (c : Bool) : aslOp.result v c = BitVec.ofNat 8 (2 * v.toNat) := by
  revert v c
  decide

theorem lsrOp_result (v : Byte) (c : Bool) : lsrOp.result v c = BitVec.ofNat 8 (v.toNat / 2) := by
  revert v c
  decide

theorem rolOp_result (v : Byte) (c : Bool) : rolOp.result v c = BitVec.ofNat 8 (2 * v.toNat + c.toNat) := by
  revert v c
  decide

theorem rorOp_result (v : Byte) (c : Bool) : rorOp.result v c = BitVec.ofNat 8 (v.toNat / 2 + 128 * c.toNat) := by
  revert v c
  decide

/-- The bit shifted out to the left says that the byte is 128 or more. -/
theorem carryOut_left (v : Byte) : aslOp.carryOut v = decide (128 ≤ v.toNat) ∧ rolOp.carryOut v = decide (128 ≤ v.toNat) :=
  ⟨getLsbD_seven v, getLsbD_seven v⟩

/-- The bit shifted out to the right says that the byte is odd. -/
theorem carryOut_right (v : Byte) :
    lsrOp.carryOut v = decide (v.toNat % 2 = 1) ∧ rorOp.carryOut v = decide (v.toNat % 2 = 1) := by
  revert v
  decide

/-- N after a shift to the right is the bit shifted in (R172, R174). -/
theorem decide_128_le_half_add (v : Byte) (c : Bool) :
    decide (128 ≤ (BitVec.ofNat 8 (v.toNat / 2 + 128 * c.toNat)).toNat) = c := by
  have hv := v.isLt
  rw [BitVec.toNat_ofNat]
  cases c <;> simp <;> omega

/-- Settles O21: ASL and LSR are the shifts that take no carry in. -/
theorem shiftResults : Obligations.ShiftResults := by
  refine ⟨fun i s hk => ?asl, fun i s hk => ?lsr⟩
  case asl =>
    refine ⟨encodedAs_of_rom hk (by decide +kernel), (completes_of_shiftEffect .asl hk s).mono fun t h => ?_⟩
    rwa [aslOp_result, (carryOut_left _).1] at h
  case lsr =>
    refine ⟨encodedAs_of_rom hk (by decide +kernel), (completes_of_shiftEffect .lsr hk s).mono fun t h => ?_⟩
    rw [lsrOp_result, (carryOut_right _).1] at h
    obtain ⟨written, hc, zn, kept⟩ := h
    exact ⟨written, hc, zn, zn.2.trans (decide_128_le_half_add _ false), kept⟩

/-- Settles O22: ROL and ROR take the old carry in. -/
theorem rotateResults : Obligations.RotateResults := by
  refine ⟨fun i s hk => ?rol, fun i s hk => ?ror⟩
  case rol =>
    refine ⟨encodedAs_of_rom hk (by decide +kernel), (completes_of_shiftEffect .rol hk s).mono fun t h => ?_⟩
    rwa [rolOp_result, (carryOut_left _).2] at h
  case ror =>
    refine ⟨encodedAs_of_rom hk (by decide +kernel), (completes_of_shiftEffect .ror hk s).mono fun t h => ?_⟩
    rw [rorOp_result, (carryOut_right _).2] at h
    obtain ⟨written, hc, zn, kept⟩ := h
    exact ⟨written, hc, zn, zn.2.trans (decide_128_le_half_add _ s.carry), kept⟩

/-- A and C, which a rotate of A turns as one ring of nine bits. -/
def ring (s : State) : Byte × Bool := (s.a, s.carry)

/-- A shift or rotate on the ring of A and C. -/
def turn (op : ShiftOp) (r : Byte × Bool) : Byte × Bool := (op.result r.1 r.2, op.carryOut r.1)

theorem ring_eq_iff {s t : State} : ring t = ring s ↔ t.a = s.a ∧ t.carry = s.carry := Prod.mk_inj

theorem ring_shiftAcc (k : Kind) (op : ShiftOp) : Function.Semiconj ring (shiftAcc k op) (turn op) := by
  intro s
  exact Prod.ext rfl (carry_flagsZN_keepsFlags (s := s) rfl).1

theorem turn_rolOp_nine (r : Byte × Bool) : (turn rolOp)^[9] r = r := by
  revert r
  decide +kernel

theorem turn_rorOp_nine (r : Byte × Bool) : (turn rorOp)^[9] r = r := by
  revert r
  decide +kernel

theorem turn_rorOp_rolOp (r : Byte × Bool) : turn rorOp (turn rolOp r) = r := by
  revert r
  decide +kernel

/-- Settles O23: on A and C the rotates are turns of a ring of nine bits. -/
theorem nineRotatesRestore : Obligations.NineRotatesRestore := by
  intro s
  have rol : ring ((shiftAcc .rol rolOp)^[9] s) = ring s :=
    ((ring_shiftAcc .rol rolOp).iterate_right 9 s).trans (turn_rolOp_nine _)
  have ror : ring ((shiftAcc .ror rorOp)^[9] s) = ring s :=
    ((ring_shiftAcc .ror rorOp).iterate_right 9 s).trans (turn_rorOp_nine _)
  have back : ring (shiftAcc .ror rorOp (shiftAcc .rol rolOp s)) = ring s := by
    rw [ring_shiftAcc .ror rorOp, ring_shiftAcc .rol rolOp, turn_rorOp_rolOp]
  obtain ⟨rol_a, rol_c⟩ := ring_eq_iff.mp rol
  obtain ⟨ror_a, ror_c⟩ := ring_eq_iff.mp ror
  exact ⟨fun _ => ⟨rfl, rfl⟩, rol_a, rol_c, ror_a, ror_c, ring_eq_iff.mp back⟩

/-- What INC and DEC leave: the byte at ea and SetZN of it (R170, R176, R177). -/
theorem completes_of_countMem {i : Instr} {k : Kind} {m : MemOperand} {s : State} {result : Byte → Byte} {extra : Nat}
    (hk : i.kind = k) (ho : i.operand = .mem m) (hx : fixedExtra k m.mode = extra)
    (run : exec i s = .next (countMem k result m s)) :
    Completes i s extra (fun t =>
      RegsAre t s.a s.x s.y s.sp ∧ StoresByte (ea m s) (result (memRead s (ea m s))) s t ∧
      FlagsZN t (result (memRead s (ea m s))) ∧ KeepsFlags 0x82#8 s t) := by
  rw [countMem, hx] at run
  apply completes_of_retire i k (.mem m) extra s _ _ run hk ho (by simp [SamePcAndControl])
  refine ⟨by simp [RegsAre], storesByte_of_memWrite (setZN _ s) rfl rfl rfl (memWrite_cfg _ _ _), ?_⟩
  exact flagsZN_keepsFlags (memWrite_p _ _ _)

/-- Settles O24: INC and DEC count the byte at ea modulo 256. -/
theorem incDecResults : Obligations.IncDecResults := by
  refine ⟨fun i s hk => ?inc, fun i s hk => ?dec⟩
  case inc =>
    obtain ⟨m, ho, run⟩ := exec_of_memWriter .inc hk
    simp only [ofNat_toNat_add, Instr.mode, ho]
    exact ⟨m, rfl, encodedAs_of_rom hk (by decide +kernel), completes_of_countMem hk ho rfl (run s)⟩
  case dec =>
    obtain ⟨m, ho, run⟩ := exec_of_memWriter .dec hk
    simp only [ofNat_toNat_add_255, Instr.mode, ho]
    exact ⟨m, rfl, encodedAs_of_rom hk (by decide +kernel), completes_of_countMem hk ho rfl (run s)⟩

/-- Settles O25: each writes X or Y, then SetZN. -/
theorem indexCountResults : Obligations.IndexCountResults := by
  intro s
  simp only [ofNat_toNat_add_255, ofNat_toNat_add]
  refine ⟨⟨?_, ?inx⟩, ⟨?_, ?iny⟩, ⟨?_, ?dex⟩, ⟨?_, ?dey⟩⟩
  case inx | dex =>
    exact (completes_of_setZN rfl rfl rfl).mono fun t ⟨⟨ha, hx, regs⟩, zn, frame⟩ => ⟨⟨ha, hx, regs⟩, hx ▸ zn, frame⟩
  case iny | dey =>
    exact (completes_of_setZN rfl rfl rfl).mono fun t ⟨⟨ha, hx, hy, hs⟩, zn, frame⟩ => ⟨⟨ha, hx, hy, hs⟩, hy ▸ zn, frame⟩
  all_goals exact List.mem_singleton_self _

/-- What a store leaves: the byte at ea, and Z and N only under STORE_SETS_NZ (R227 to R230). -/
theorem completes_of_storeInstr {i : Instr} {k : Kind} {m : MemOperand} {s : State} {reg : Byte} {extra : Nat}
    (hk : i.kind = k) (ho : i.operand = .mem m) (hx : fixedExtra k m.mode = extra)
    (run : exec i s = .next (storeInstr k reg m s)) :
    Completes i s extra (fun t =>
      RegsAre t s.a s.x s.y s.sp ∧ StoresByte (ea m s) reg s t ∧ (s.cfg.storeSetsNZ = false → t.p = s.p) ∧
      (s.cfg.storeSetsNZ = true → FlagsZN t reg ∧ KeepsFlags 0x82#8 s t)) := by
  rw [storeInstr, hx] at run
  cases hz : s.cfg.storeSetsNZ
  case false =>
    simp only [hz, Bool.false_eq_true, if_false] at run
    apply completes_of_retire i k (.mem m) extra s _ _ run hk ho (by simp [SamePcAndControl])
    exact ⟨by simp [RegsAre], storesByte_of_memWrite s rfl rfl (by simp) (by simp), fun _ => memWrite_p _ _ _, nofun⟩
  case true =>
    simp only [hz, if_true] at run
    apply completes_of_retire i k (.mem m) extra s _ _ run hk ho (by simp [SamePcAndControl])
    refine ⟨by simp [RegsAre], storesByte_of_memWrite s rfl rfl (by simp) (by simp), nofun, fun _ => ?_⟩
    exact flagsZN_keepsFlags (by simp)

theorem fixedExtra_sta (m : Mode) : fixedExtra .sta m = if m ∈ ([.abx, .aby, .izy] : List Mode) then 1 else 0 := by
  cases m <;> rfl

/-- Settles O36: the kinds differ in the register stored, and only STA has the extra cycle. -/
theorem storeResults : Obligations.StoreResults := by
  refine ⟨fun i s hk => ?sta, fun i s hk => ?stx, fun i s hk => ?sty⟩
  case sta =>
    obtain ⟨m, ho, run⟩ := exec_of_memWriter .sta hk
    simp only [Instr.mode, ho]
    exact ⟨m, rfl, encodedAs_of_rom hk (by decide +kernel), completes_of_storeInstr hk ho (fixedExtra_sta _) (run s)⟩
  case stx =>
    obtain ⟨m, ho, run⟩ := exec_of_memWriter .stx hk
    exact ⟨m, ho, encodedAs_of_rom hk (by decide +kernel), completes_of_storeInstr hk ho rfl (run s)⟩
  case sty =>
    obtain ⟨m, ho, run⟩ := exec_of_memWriter .sty hk
    exact ⟨m, ho, encodedAs_of_rom hk (by decide +kernel), completes_of_storeInstr hk ho rfl (run s)⟩

end Sys2Proof.Machine
end

section
/-! PROOF. Effective addresses and page crossings (O39, O40) in plain arithmetic. -/

namespace Sys2Proof.Machine

open Sys2Proof.Safety

theorem zext16_eq_ofNat (v : Byte) : zext16 v = BitVec.ofNat 16 v.toNat := by
  rw [← BitVec.toNat_inj, zext16, BitVec.toNat_setWidth, BitVec.toNat_ofNat]

theorem zext16_add (v w : Byte) : zext16 (v + w) = BitVec.ofNat 16 ((v.toNat + w.toNat) % 256) := by
  rw [zext16_eq_ofNat, BitVec.toNat_add]

theorem zext16_add_one (v : Byte) : zext16 (v + 1) = BitVec.ofNat 16 ((v.toNat + 1) % 256) := zext16_add v 1

/-- A sum of words modulo 65536 in plain arithmetic is the sum of the words. -/
theorem ofNat_toNat_add_word (w : Word) (n : Nat) : BitVec.ofNat 16 (w.toNat + n) = w + BitVec.ofNat 16 n := by
  rw [BitVec.ofNat_add, BitVec.ofNat_toNat, BitVec.setWidth_eq]

theorem add_zext16 (w : Word) (v : Byte) : w + zext16 v = BitVec.ofNat 16 (w.toNat + v.toNat) := by
  rw [ofNat_toNat_add_word, zext16_eq_ofNat]

/-- A page 0 pointer takes its high byte from the next address of page 0 (R132, R133). -/
theorem zeroPagePointer_eq (s : State) (p : Byte) :
    zeroPagePointer s p = BitVec.ofNat 16 ((memRead s (BitVec.ofNat 16 p.toNat)).toNat +
      256 * (memRead s (BitVec.ofNat 16 ((p.toNat + 1) % 256))).toNat) := by
  rw [zeroPagePointer, cat_eq_ofNat, zext16_add_one, zext16_eq_ofNat]

/-- The next address in the same page. -/
theorem cat_hi_lo_add_one (w : Word) :
    cat (hi w) (lo w + 1) = BitVec.ofNat 16 (w.toNat / 256 * 256 + (w.toNat + 1) % 256) := by
  have hw := w.isLt
  rw [cat_eq_ofNat, hi_eq_ofNat, lo_eq_ofNat, toNat_add_one, BitVec.toNat_ofNat, BitVec.toNat_ofNat]
  congr 1
  omega

/-- The pointer of JMP (ind), whose high byte is read where `JMP_IND_PAGE_WRAP` says (R131). -/
theorem indirectPointer_eq (s : State) (w : Word) :
    indirectPointer s w =
      BitVec.ofNat 16 ((memRead s w).toNat + 256 *
        (memRead s (if s.cfg.jmpIndPageWrap then BitVec.ofNat 16 (w.toNat / 256 * 256 + (w.toNat + 1) % 256)
          else BitVec.ofNat 16 (w.toNat + 1))).toNat) := by
  rw [indirectPointer, cat_eq_ofNat, cat_hi_lo_add_one, ofNat_toNat_add_word]
  rfl

/-- Settles O39, mode by mode. -/
theorem effectiveAddresses : Obligations.EffectiveAddresses := by
  intro b w m s
  refine ⟨rfl, rfl, ?operand, rfl, ?imm, ?rel, ?zp, ?zpx, ?zpy, rfl, ?abx, ?aby, ?izx, ?izy, ?wrap, ?noWrap⟩
  case operand =>
    intro hi hr
    cases m
    case imm => exact absurd rfl hi
    case rel => exact absurd rfl hr
    all_goals rfl
  case imm | rel => exact (ofNat_toNat_add_word s.pc 1).symm
  case zp => exact zext16_eq_ofNat b
  case zpx => exact zext16_add b s.x
  case zpy => exact zext16_add b s.y
  case abx => exact add_zext16 w s.x
  case aby => exact add_zext16 w s.y
  case izx =>
    show zeroPagePointer s (b + s.x) = _
    rw [zeroPagePointer_eq, BitVec.toNat_add, Nat.mod_add_mod]
  case izy =>
    show zeroPagePointer s b + zext16 s.y = _
    rw [zeroPagePointer_eq, zext16_eq_ofNat, ← BitVec.ofNat_add]
  case wrap =>
    intro hw
    show indirectPointer s w = _
    simp only [indirectPointer_eq, if_pos hw, BitVec.ofNat_toNat, BitVec.setWidth_eq]
  case noWrap =>
    intro hw
    show indirectPointer s w = _
    simp only [indirectPointer_eq, if_neg (Bool.eq_false_iff.mp hw), BitVec.ofNat_toNat, BitVec.setWidth_eq]

/-- Two addresses lie in one page when they agree but for the low byte. -/
theorem page_eq_iff (v w : Word) : page v = page w ↔ v.toNat / 256 = w.toNat / 256 := by
  have hv := v.isLt
  have hw := w.isLt
  rw [page, page, hi_eq_ofNat, hi_eq_ofNat, ← BitVec.toNat_inj, BitVec.toNat_ofNat, BitVec.toNat_ofNat]
  omega

/-- Adding a byte leaves the page exactly when it carries out of the low byte. -/
theorem page_bne_page_add (w : Word) (v : Byte) :
    (page w != page (w + zext16 v)) = decide (256 ≤ w.toNat % 256 + v.toNat) := by
  have hw := w.isLt
  have hv := v.isLt
  have sum : (w + zext16 v).toNat = (w.toNat + v.toNat) % 65536 := by
    rw [BitVec.toNat_add, zext16, BitVec.toNat_setWidth_of_le (by decide)]
  rw [Bool.eq_iff_iff, bne_iff_ne, Ne, page_eq_iff, sum, decide_eq_true_iff]
  omega

/-- Settles O40: the three modes that have a base to index. -/
theorem pageCrossings : Obligations.PageCrossings := by
  intro m s
  cases m
  case abx w => exact page_bne_page_add w s.x
  case aby w => exact page_bne_page_add w s.y
  case izy b =>
    refine (page_bne_page_add (zeroPagePointer s b) s.y).trans ?_
    have low := (memRead s (zext16 b)).isLt
    rw [zeroPagePointer, toNat_cat, Nat.mul_add_mod', Nat.mod_eq_of_lt low, zext16_eq_ofNat]
  all_goals rfl

end Sys2Proof.Machine
end

section
/-! PROOF. The branches and jumps (O26, O27). -/

namespace Sys2Proof.Machine

open Sys2Proof.Safety

/-- The target of a branch is the signed displacement from the next instruction (R190). -/
theorem branchTarget_eq (pc : Word) (off : Byte) :
    pc + 2 + sext16 off = BitVec.ofInt 16 ((pc.toNat : Int) + 2 + off.toInt) := by
  rw [BitVec.ofInt_add, BitVec.ofInt_add, BitVec.ofInt_natCast, BitVec.ofNat_toNat, BitVec.setWidth_eq]
  rfl

/-- The page penalty of a taken branch in plain arithmetic (R190). -/
theorem branchExtra_eq (k : Kind) (target : Word) (s : State) :
    branchExtra k target s =
      if target.toNat / 256 ≠ (if s.cfg.branchPageBase = .opcode then s.pc else s.pc + 2).toNat / 256 ∧
        (k ≠ .beq ∨ s.cfg.beqPagePenalty = true) then 2 else 1 := by
  unfold branchExtra
  cases s.cfg.branchPageBase <;> simp [page_eq_iff]

theorem branch_true (k : Kind) (off : Byte) (s : State) :
    branch k true off s =
      charge k (.mem (.rel off)) (branchExtra k (s.pc + 2 + sext16 off) s) { s with pc := s.pc + 2 + sext16 off } := rfl

/-- An instruction that is the common branch rule is a branch as R190 says. -/
theorem branches_of_exec {i : Instr} {op off : Byte} {taken : Bool} {s : State} (ho : i.operand = .mem (.rel off))
    (hop : i.opcode = op) (run : exec i s = .next (branch i.kind taken off s)) : Branches i op taken off s := by
  have completes (target : Word) (extra : Nat)
      (h : branch i.kind taken off s = charge i.kind (.mem (.rel off)) extra { s with pc := target }) :
      CompletesAt i s target extra (fun t => RegsAre t s.a s.x s.y s.sp ∧ t.p = s.p ∧ KeepsMemory s t) :=
    completesAt_of_charge i i.kind _ extra s _ target _ (run.trans (congrArg _ h)) rfl ho ⟨rfl, rfl, rfl, rfl, rfl⟩ rfl
      ⟨⟨rfl, rfl, rfl, rfl⟩, rfl, keepsMemory_of_eq rfl rfl⟩
  refine ⟨?_, ⟨?_, ?_, ?_⟩, ho⟩
  · rw [EncodedAs, Instr.mode, ho, hop]
    exact List.mem_singleton_self _
  · rintro ⟨rfl, penalty⟩
    apply completes
    rw [← branchTarget_eq] at penalty ⊢
    rw [branch_true, branchExtra_eq, if_pos penalty]
  · rintro ⟨rfl, penalty⟩
    apply completes
    rw [← branchTarget_eq] at penalty ⊢
    rw [branch_true, branchExtra_eq, if_neg penalty]
  · rintro rfl
    exact completes _ _ rfl

/-- Settles O26: the eight kinds differ in the condition alone. -/
theorem branchResults : Obligations.BranchResults := by
  intro off s
  refine ⟨?_, ?_, ?_, ?_, ?_, ?_, ?_, ?_⟩ <;> exact branches_of_exec rfl rfl rfl

/-- What a jump leaves: PC at the effective address (R199). -/
theorem completesAt_of_jmp {i : Instr} {m : MemOperand} {s : State} {target : Word} (hk : i.kind = .jmp)
    (ho : i.operand = .mem m) (run : exec i s = .next (jmp m s)) (ht : ea m s = target) :
    CompletesAt i s target 0 (fun t => RegsAre t s.a s.x s.y s.sp ∧ t.p = s.p ∧ KeepsMemory s t) :=
  completesAt_of_charge i .jmp _ 0 s { s with pc := ea m s } target _ run hk ho ⟨rfl, rfl, rfl, rfl, rfl⟩ ht
    ⟨⟨rfl, rfl, rfl, rfl⟩, rfl, keepsMemory_of_eq rfl rfl⟩

/-- Settles O27: both jumps go to their effective address. -/
theorem jumpResults : Obligations.JumpResults := fun addr s =>
  ⟨⟨List.mem_singleton_self _, completesAt_of_jmp rfl rfl rfl rfl⟩,
    ⟨List.mem_singleton_self _, completesAt_of_jmp rfl rfl rfl (indirectPointer_eq s addr)⟩⟩

end Sys2Proof.Machine
end

section
/-! PROOF. Subroutines, exceptions and the stack instructions (O28 to O34, O38), and what RTI makes of an
interrupt entry (O42). -/

namespace Sys2Proof.Machine

open Sys2Proof.Safety

theorem ofNat_toNat_add_254 (v : Byte) : BitVec.ofNat 8 (v.toNat + 254) = v - 1 - 1 := by
  rw [ofNat_toNat_add]
  bv_omega

theorem ofNat_toNat_add_253 (v : Byte) : BitVec.ofNat 8 (v.toNat + 253) = v - 1 - 1 - 1 := by
  rw [ofNat_toNat_add]
  bv_omega

theorem add_one_add_one (v : Byte) : v + 1 + 1 = v + 2 := BitVec.add_assoc v 1 1

theorem pullByte_afterPull (s : State) : pullByte (afterPull s) = memRead s (stackAddr (s.sp + 2)) := by
  show memRead s (stackAddr (s.sp + 1 + 1)) = _
  rw [add_one_add_one]

/-- The pulled word in plain arithmetic (R25). -/
theorem pullWord_eq (s : State) :
    pullWord s =
      BitVec.ofNat 16 ((memRead s (stackAddr (s.sp + 1))).toNat + 256 * (memRead s (stackAddr (s.sp + 2))).toNat) := by
  rw [pullWord, cat_eq_ofNat, pullByte_afterPull, pullByte]

/-- Settles O28: the return address is pushed as a word and pulled as a word. -/
theorem subroutineResults : Obligations.SubroutineResults := by
  refine ⟨fun addr s => ⟨List.mem_singleton_self _, ?jsr⟩, fun s => ⟨List.mem_singleton_self _, ?rts⟩⟩
  case jsr =>
    rw [ofNat_toNat_add_254, ← hi_eq_ofNat, ← lo_eq_ofNat]
    apply completesAt_of_charge _ .jsr _ 0 s { push16 (s.pc + 2) s with pc := addr } addr _ rfl rfl rfl
      (by simp [KeepsControl]) rfl
    exact ⟨by simp [RegsAre], by simp, (storesBytes_push16 (s.pc + 2) s).congr rfl (by simp)⟩
  case rts =>
    rw [BitVec.ofNat_add, ← pullWord_eq, ofNat_toNat_add]
    apply completesAt_of_charge _ .rts _ 0 s { afterPull16 s with pc := pullWord s + 1 } _ _ rfl rfl rfl
      ⟨rfl, rfl, rfl, rfl, rfl⟩ rfl
    exact ⟨⟨rfl, rfl, rfl, add_one_add_one _⟩, rfl, keepsMemory_of_eq rfl rfl⟩

/-- Settles O29: three pulls, P and then the two bytes of PC. -/
theorem rtiResult : Obligations.RtiResult := by
  refine fun s => ⟨List.mem_singleton_self _, ?_⟩
  have pc : (leaveException s).pc =
      BitVec.ofNat 16 ((memRead s (stackAddr (s.sp + 2))).toNat + 256 * (memRead s (stackAddr (s.sp + 3))).toNat) := by
    rw [leaveException_pc, pullWord_eq, afterPull_sp, add_one_add_one, BitVec.add_assoc]
    rfl
  have sp : (leaveException s).sp = BitVec.ofNat 8 (s.sp.toNat + 3) := by
    rw [leaveException_sp, ofNat_toNat_add, BitVec.add_assoc, BitVec.add_assoc]
    rfl
  apply completesAt_of_charge _ .rti _ 0 s (leaveException s) _ _ rfl rfl rfl (by simp [KeepsControl]) pc
  exact ⟨by simp [RegsAre, ← sp], by simp [pullByte], by simp [State.unused], keepsMemory_of_eq (by simp) (by simp)⟩

theorem setBit_true_two (p : Byte) : setBit 2 true p = p ||| 0x04#8 := rfl

theorem setBit_true_four (p : Byte) : setBit 4 true p = p ||| 0x10#8 := rfl

/-- Settles O30: BRK takes the exception at the IRQ/BRK vector. -/
theorem brkResult : Obligations.BrkResult := by
  refine fun s => ⟨List.mem_singleton_self _, ?_⟩
  rw [ofNat_toNat_add_253]
  apply completesAt_of_charge _ .brk _ 0 s _ _ _ rfl rfl rfl (by simp [KeepsControl])
    (enterException_pc _ _ _ _ s (by decide) (by decide))
  refine ⟨by simp [RegsAre], ?_, ?_⟩
  · rw [charge_p, enterException_p, setBit_true_two, setBit_true_four, BitVec.or_assoc]
    rfl
  · rw [← hi_eq_ofNat, ← lo_eq_ofNat]
    apply (storesBytes_enterException _ _ 0 irqVector s).congr rfl
    simp

@[simp] theorem enterException_mem (ret : Word) (pushed newP : Byte) (vec : Word) (s : State) :
    (enterException ret pushed newP vec s).mem = (push8 pushed (push16 ret s)).mem := rfl

@[simp] theorem interruptEntry_mem (vec : Word) (s : State) :
    (interruptEntry vec s).mem = (push8 ((s.p &&& 0xEF#8) ||| 0x20#8) (push16 s.pc s)).mem := rfl

/-- Pulling a word under a byte just pulled. -/
theorem pullWord_afterPull_push8 (v : Byte) (s : State) : pullWord (afterPull (push8 v s)) = pullWord s := by
  have other (d : Byte) (hd : d ≠ 0) : memRead (push8 v s) (stackAddr (s.sp + d)) = memRead s (stackAddr (s.sp + d)) := by
    rw [memRead_push8, if_neg]
    simpa using hd
  have sp : (afterPull (push8 v s)).sp = s.sp := by rw [afterPull_sp, push8_sp, BitVec.sub_add_cancel]
  rw [pullWord_eq, pullWord_eq, sp]
  show BitVec.ofNat 16 ((memRead (push8 v s) _).toNat + 256 * (memRead (push8 v s) _).toNat) = _
  rw [other 1 (by decide), other 2 (by decide)]

/-- What RTI pulls in a state with the memory and S that the pushes of an exception left (R203, R269). -/
theorem leaveException_of_pushed {ret : Word} {pushed : Byte} {s t : State}
    (hm : t.mem = (push8 pushed (push16 ret s)).mem) (hc : t.cfg = s.cfg) (hs : t.sp = s.sp - 1 - 1 - 1) :
    (leaveException t).pc = ret ∧ (leaveException t).p = pushed ||| 0x20#8 ∧ (leaveException t).sp = s.sp := by
  have cfg : t.cfg = (push8 pushed (push16 ret s)).cfg := by simp [hc]
  have sp : t.sp = (push8 pushed (push16 ret s)).sp := by simp [hs]
  refine ⟨?_, ?_, ?_⟩
  · rw [leaveException_pc, pullWord_congr (t := afterPull t) (s := afterPull (push8 pushed (push16 ret s))) hm cfg
      (congrArg (· + 1) sp), pullWord_afterPull_push8, pullWord_push16]
  · rw [leaveException_p, pullByte_congr (s := push8 pushed (push16 ret s)) hm cfg sp, pullByte_push8]
  · rw [leaveException_sp, hs, BitVec.sub_add_cancel, BitVec.sub_add_cancel, BitVec.sub_add_cancel]

/-- RTS pulls the word JSR pushed. -/
theorem pullWord_jumpSubroutine (addr : Word) (s : State) : pullWord (jumpSubroutine addr s) = s.pc + 2 := by
  rw [pullWord_congr (s := push16 (s.pc + 2) s), pullWord_push16] <;> simp [jumpSubroutine]

/-- Settles O31: what JSR and BRK push is what RTS and RTI pull. -/
theorem callsAndBreaksReturn : Obligations.CallsAndBreaksReturn := by
  refine ⟨fun addr s => ⟨_, _, rfl, rfl, ?_, ?_, ?_⟩, fun s => ⟨_, _, rfl, rfl, ?_⟩⟩
  · show pullWord (jumpSubroutine addr s) + 1 = _
    rw [pullWord_jumpSubroutine, BitVec.add_assoc]
    rfl
  · simp [RegsAre, returnSubroutine, jumpSubroutine]
  · simp [returnSubroutine, jumpSubroutine]
  · obtain ⟨pc, p, sp⟩ := leaveException_of_pushed (s := s) (t := softwareBreak s)
      (by rw [softwareBreak, charge_mem, enterException_mem]) (by simp [softwareBreak]) (by simp [softwareBreak])
    refine ⟨pc, ⟨?_, ?_, ?_, sp⟩, p.trans (BitVec.or_assoc _ _ _)⟩ <;> simp [softwareBreak]

/-- Settles O42: RTI pulls what the interrupt entry pushed. -/
theorem interruptThenRtiResumes : Obligations.InterruptThenRtiResumes := by
  refine fun s vec => ⟨_, rfl, ?_⟩
  obtain ⟨pc, p, sp⟩ := leaveException_of_pushed (s := s) (t := interruptEntry vec s) (interruptEntry_mem vec s)
    (by simp) (by simp)
  exact ⟨pc, ⟨by simp, by simp, by simp, sp⟩, p.trans (BitVec.or_assoc _ _ _)⟩

theorem ofNat_toNat_add_one (v : Byte) : BitVec.ofNat 8 (v.toNat + 1) = v + 1 := ofNat_toNat_add v 1

/-- Settles O32: the two push different bytes. -/
theorem pushInstructionResults : Obligations.PushInstructionResults := by
  intro s
  rw [ofNat_toNat_add_255]
  refine ⟨⟨List.mem_singleton_self _, ?pha⟩, ⟨List.mem_singleton_self _, ?php⟩⟩
  case pha =>
    apply completes_of_retire _ .pha _ 0 s (push8 s.a s) _ rfl rfl rfl (by simp [SamePcAndControl])
    exact ⟨by simp [RegsAre], by simp, (storesByte_push8 _ s).congr rfl (by simp)⟩
  case php =>
    apply completes_of_retire _ .php _ 0 s (push8 (s.p ||| 0x30#8) s) _ rfl rfl rfl (by simp [SamePcAndControl])
    exact ⟨by simp [RegsAre], by simp, (storesByte_push8 _ s).congr rfl (by simp)⟩

/-- PLP takes every bit but B and U from the pulled byte (R223). -/
theorem pulledFlags_and (v p : Byte) :
    ((v &&& 0xCF#8) ||| 0x20#8 ||| (p &&& 0x10#8)) &&& 0xCF#8 = v &&& 0xCF#8 := by
  apply BitVec.eq_of_getLsbD_eq
  intro i hi
  interval_cases i <;> simp

/-- Settles O33: the byte pulled goes to A with SetZN, or to the flags under PLP's mask. -/
theorem pullInstructionResults : Obligations.PullInstructionResults := by
  intro s
  rw [ofNat_toNat_add_one]
  refine ⟨⟨List.mem_singleton_self _, ?pla⟩, ⟨List.mem_singleton_self _, ?plp⟩⟩
  case pla =>
    apply completes_of_retire _ .pla _ 0 s (pullA s) _ rfl rfl rfl ⟨rfl, rfl, rfl, rfl, rfl, rfl⟩
    exact ⟨⟨rfl, rfl, rfl, rfl⟩, and_assoc.mp ⟨flagsZN_keepsFlags rfl, keepsMemory_of_eq rfl rfl⟩⟩
  case plp =>
    apply completes_of_retire _ .plp _ 0 s (pullP s) _ rfl rfl rfl ⟨rfl, rfl, rfl, rfl, rfl, rfl⟩
    exact ⟨⟨rfl, rfl, rfl, rfl⟩, pulledFlags_and _ s.p, by simp [State.brk], by simp [State.unused],
      keepsMemory_of_eq rfl rfl⟩

/-- What an instruction that pushes a byte leaves to be pulled. -/
theorem pullByte_retire_push8 (k : Kind) (o : Operand) (extra : Nat) (v : Byte) (s : State) :
    pullByte (retire k o extra (push8 v s)) = v :=
  (pullByte_congr (s := push8 v s) rfl rfl rfl).trans (pullByte_push8 v s)

/-- PLP after PHP: B as it was, U set, every other flag back. -/
theorem pulledFlags_of_pushed (p : Byte) :
    ((p ||| 0x30#8) &&& 0xCF#8) ||| 0x20#8 ||| (p &&& 0x10#8) = p ||| 0x20#8 := by
  revert p
  decide

/-- Settles O34: each pull gives back the byte just pushed. -/
theorem pushPullRoundTrips : Obligations.PushPullRoundTrips := by
  refine fun s => ⟨⟨_, _, rfl, rfl, ?pha⟩, ⟨_, _, rfl, rfl, ?php⟩⟩
  case pha =>
    have pulled := pullByte_retire_push8 .pha .implied 0 s.a s
    unfold impliedInstr
    refine ⟨⟨pulled, by simp, by simp, by simp⟩, and_assoc.mp ⟨flagsZN_keepsFlags (by simp [pulled]), ?_⟩⟩
    simp [Operand.mode, Mode.length, BitVec.add_assoc]
  case php =>
    have pulled := pullByte_retire_push8 .php .implied 0 (s.p ||| 0x30#8) s
    unfold impliedInstr
    refine ⟨by simp [RegsAre], ?_, by simp [Operand.mode, Mode.length, BitVec.add_assoc]⟩
    simp only [retire_p, pullP_p, pulled, push8_p, pulledFlags_of_pushed]

/-- An instruction that writes one bit of P leaves the bit, and keeps every other one, the registers and memory. -/
theorem completes_of_setBit {i : Instr} {k : Kind} {s : State} {n : Nat} {b : Bool} (hn : n < 8) (hk : i.kind = k)
    (ho : i.operand = .implied) (run : exec i s = .next (retire k .implied 0 { s with p := setBit n b s.p })) :
    Completes i s 0 (fun t => (RegsAre t s.a s.x s.y s.sp ∧ KeepsMemory s t) ∧ t.p.getLsbD n = b ∧
      KeepsFlags (1#8 <<< n) s t) := by
  apply completes_of_retire i k .implied 0 s _ _ run hk ho ⟨rfl, rfl, rfl, rfl, rfl, rfl⟩
  refine ⟨⟨⟨rfl, rfl, rfl, rfl⟩, keepsMemory_of_eq rfl rfl⟩, ?_, setBit_outside n b s.p _ hn (by simp [hn])⟩
  exact (getLsbD_setBit n n b s.p hn hn).trans (if_pos rfl)

/-- Settles O38: each flag instruction writes its one bit. -/
theorem flagInstructionResults : Obligations.FlagInstructionResults := by
  refine fun s => ⟨⟨?_, ?clc⟩, ⟨?_, ?cld⟩, ⟨?_, ?cli⟩, ⟨?_, ?clv⟩, ⟨?_, ?sec⟩, ⟨?_, ?sed⟩, ⟨?_, ?sei⟩, ⟨?_, ?nop⟩⟩
  case clc | sec => exact completes_of_setBit (n := 0) (by decide) rfl rfl rfl
  case cld | sed => exact completes_of_setBit (n := 3) (by decide) rfl rfl rfl
  case cli | sei => exact completes_of_setBit (n := 2) (by decide) rfl rfl rfl
  case clv => exact completes_of_setBit (n := 6) (by decide) rfl rfl rfl
  case nop =>
    exact completes_of_retire .nop .nop .implied 0 s s _ rfl rfl rfl ⟨rfl, rfl, rfl, rfl, rfl, rfl⟩
      ⟨⟨⟨rfl, rfl, rfl, rfl⟩, keepsMemory_of_eq rfl rfl⟩, rfl⟩
  -- each encoding is the one listed
  all_goals exact List.mem_singleton_self _

end Sys2Proof.Machine
end

section
/-! PROOF. Boundaries and ticks (O7, O41, O43 to O46, O59): what a step is in each run state, and what an interrupt entry and
an instruction leave there. -/

namespace Sys2Proof.Machine

open Sys2Proof.Safety

theorem exec_answers (i : Instr) (s : State) : ∃ t, exec i s = .next t :=
  let ⟨f, run, _⟩ := exec_meaning i
  ⟨f s, run s⟩

theorem boundary_of_nmi {s : State} (h : s.nmiPending = true) :
    boundary s = .next (interruptEntry nmiVector { s with nmiPending := false }) := if_pos h

theorem boundary_of_irq {s : State} (hn : s.nmiPending = false) (hi : irqDue s = true) :
    boundary s = .next (interruptEntry irqVector s) := by
  rw [boundary, if_neg (Bool.eq_false_iff.mp hn), if_pos hi]

theorem boundary_of_none {s : State} (h : interruptDue s = false) : boundary s = exec (fetch s) s := by
  obtain ⟨hn, hi⟩ : s.nmiPending = false ∧ irqDue s = false := by simpa [interruptDue] using h
  rw [boundary, if_neg (Bool.eq_false_iff.mp hn), if_neg (Bool.eq_false_iff.mp hi)]

theorem boundary_answers (s : State) : ∃ t, boundary s = .next t :=
  let ⟨t, _, ht, _⟩ := boundary_untimed s
  ⟨t, ht⟩

theorem irqDue_iff (s : State) : irqDue s = true ↔ s.irqLine = true ∧ s.interruptDisable = false := by
  simp [irqDue]

theorem step_of_halted {s : State} {f : Fault} (hr : s.run = .halted f) : step s = .fault f := by
  rw [step, tick, hr]

theorem step_of_idle {s : State} (hr : s.run = .stopped ∨ s.run = .reset) : step s = .next s := by
  rw [step, tick]
  obtain hr | hr := hr <;> rw [hr]

theorem step_of_owed {s : State} (hr : s.run = .running) (ho : s.owed ≠ 0) : step s = .next (countTick s) := by
  rw [step, tick, hr]
  exact if_neg ho

theorem step_of_boundary {s t : State} (hr : s.run = .running) (ho : s.owed = 0) (hb : boundary s = .next t) :
    step s = .next (afterBoundary t) := by
  rw [step, tick, hr]
  refine (if_pos ho).trans ?_
  rw [hb]

theorem afterBoundary_of_running {s : State} (h : s.run = .running) : afterBoundary s = countTick s := if_pos h

theorem afterBoundary_of_not_running {s : State} (h : s.run ≠ .running) : afterBoundary s = s := if_neg h

/-- At a boundary with no interrupt due a step is the instruction at PC and the count (R100, R306). -/
theorem step_of_atBoundary {s t : State} (h : AtBoundary s) (ht : exec (fetch s) s = .next t) :
    step s = .next (afterBoundary t) := by
  obtain ⟨hr, ho, hd⟩ := h
  exact step_of_boundary hr ho ((boundary_of_none hd).trans ht)

/-- Settles O7: the three bytes at PC decode to the instruction fetched. -/
theorem stepRunsDecodedInstruction : Obligations.StepRunsDecodedInstruction := by
  intro s i rest hr ho hn hi hd
  obtain ⟨rest', decoded⟩ := decode_three s.cfg.admitUnlistedKinds (memRead s s.pc) (memRead s (s.pc + 1))
    (memRead s (s.pc + 2))
  have fetched : fetch s = i := by
    rw [decoded] at hd
    cases hd
    rfl
  have noInterrupt : interruptDue s = false := by
    obtain hi | hi := hi <;> simp [interruptDue, irqDue, hn, hi]
  obtain ⟨t, ht⟩ := exec_answers i s
  have stepped := step_of_atBoundary ⟨hr, ho, noInterrupt⟩ (fetched ▸ ht)
  exact ⟨t, ht, fun h => stepped.trans (congrArg _ (afterBoundary_of_running h)),
    fun h => stepped.trans (congrArg _ (afterBoundary_of_not_running h))⟩

/-- What an interrupt entry leaves (R269, R270). -/
theorem interruptEntry_effect {vec : Word} (hv : 0x8000 ≤ vec.toNat) (hv' : 0x8000 ≤ (vec + 1).toNat) (s : State) :
    (interruptEntry vec s).pc = wordAt s vec ∧
    RegsAre (interruptEntry vec s) s.a s.x s.y (BitVec.ofNat 8 (s.sp.toNat + 253)) ∧
    (interruptEntry vec s).p = (if s.cfg.intSetsI then s.p ||| 0x04#8 else s.p) ∧
    StoresBytes [(stackAddr s.sp, BitVec.ofNat 8 (s.pc.toNat / 256)), (stackAddr (s.sp - 1), BitVec.ofNat 8 s.pc.toNat),
      (stackAddr (s.sp - 2), (s.p &&& 0xEF#8) ||| 0x20#8)] s (interruptEntry vec s) := by
  refine ⟨enterException_pc _ _ 0 vec s hv hv', ?_, rfl, ?_⟩
  · rw [ofNat_toNat_add_253]
    exact ⟨by simp, by simp, by simp, by simp⟩
  · rw [← hi_eq_ofNat, ← lo_eq_ofNat]
    apply (storesBytes_enterException _ _ 0 vec s).congr rfl
    simp

/-- Settles O41: an NMI is entered with its latch cleared, an IRQ with it clear. -/
theorem interruptEntryEffect : Obligations.InterruptEntryEffect := by
  intro s vec hr ho due
  have counted (u : State) (hu : boundary s = .next (interruptEntry vec u)) (hur : u.run = .running) :
      step s = .next (countTick (interruptEntry vec u)) :=
    (step_of_boundary hr ho hu).trans (congrArg _ (afterBoundary_of_running ((interruptEntry_run vec u).trans hur)))
  obtain ⟨hn, rfl⟩ | ⟨hn, hline, hI, rfl⟩ := due
  · obtain ⟨pc, regs, p, stored⟩ :=
      interruptEntry_effect (vec := nmiVector) (by decide) (by decide) { s with nmiPending := false }
    exact ⟨_, counted _ (boundary_of_nmi hn) hr, by simp, pc, regs, p, stored, by simp, by simp, by simp, by simp [hr],
      by simp⟩
  · obtain ⟨pc, regs, p, stored⟩ := interruptEntry_effect (vec := irqVector) (by decide) (by decide) s
    exact ⟨_, counted _ (boundary_of_irq hn ((irqDue_iff s).mpr ⟨hline, hI⟩)) hr, by simp [hn], pc, regs, p, stored,
      by simp, by simp, by simp, by simp [hr], by simp⟩

/-- Settles O43: the sentinel's tick halts the core before anything is counted. -/
theorem fatalDecodeHaltsTheCore : Obligations.FatalDecodeHaltsTheCore := by
  refine ⟨fun s op hb hf => ⟨?_, ?_⟩, fun s f hr => ⟨step_of_halted hr, ?_, ?_⟩⟩
  · have halted : exec (fetch s) s = .next (haltFatal op s) := by rw [hf]; rfl
    exact (step_of_atBoundary hb halted).trans (congrArg _ (afterBoundary_of_not_running nofun))
  · rw [traceRecord, hf]
    exact if_neg fun h => h.2.2.2 rfl
  · rw [move, raiseNmi, hr]
  · rw [move, stopRun, hr]

/-- In every run state but Halted a step answers a next state. -/
theorem step_answers {s : State} (h : ∀ f, s.run ≠ .halted f) : ∃ t, step s = .next t := by
  match hr : s.run with
  | .halted f => exact absurd hr (h f)
  | .reset => exact ⟨s, step_of_idle (.inr hr)⟩
  | .stopped => exact ⟨s, step_of_idle (.inl hr)⟩
  | .running =>
    by_cases ho : s.owed = 0
    · obtain ⟨t, ht⟩ := boundary_answers s
      exact ⟨_, step_of_boundary hr ho ht⟩
    · exact ⟨_, step_of_owed hr ho⟩

/-- Settles O44, by the run states. -/
theorem onlyHaltedStatesFail : Obligations.OnlyHaltedStatesFail := by
  refine fun s => ⟨⟨fun ⟨f, hf⟩ => ?_, fun ⟨f, hr⟩ => ⟨f, step_of_halted hr⟩⟩, step_answers⟩
  by_contra running
  obtain ⟨t, ht⟩ := step_answers (not_exists.mp running)
  exact nomatch hf.symm.trans ht

/-- Settles O45: each case is one of the tick's equations. -/
theorem tickByCases : Obligations.TickByCases := by
  refine fun s => ⟨fun hr ho => step_of_owed hr (Nat.ne_of_gt ho), fun hr ho hn => ?nmi, fun hr ho hn hl hI => ?irq,
    fun hb => ⟨boundary_of_none hb.2.2, ?instruction⟩, step_of_idle, fun f => step_of_halted⟩
  case nmi =>
    exact (step_of_boundary hr ho (boundary_of_nmi hn)).trans (congrArg _ (afterBoundary_of_running (by simp [hr])))
  case irq =>
    have due := (irqDue_iff s).mpr ⟨hl, hI⟩
    exact (step_of_boundary hr ho (boundary_of_irq hn due)).trans (congrArg _ (afterBoundary_of_running (by simp [hr])))
  case instruction =>
    obtain ⟨t, ht⟩ := exec_answers (fetch s) s
    exact ⟨t, ht, step_of_atBoundary hb ht⟩

/-- A run that starts with a step goes on from the state the step leads to. -/
theorem run_succ_of_next {M : Host.Core} {s t : M.State} (n : Nat) (h : M.step s = .next t) :
    M.run (n + 1) s = M.run n t := by
  rw [Host.Core.run, h]

/-- While cycles are owed, ticks burn them and do nothing else (R306). -/
theorem coreRun_owed (n : Nat) {s : State} (hr : s.run = .running) (hn : n ≤ s.owed) :
    Host.Core.run Sys2Proof.core n s = .next { s with owed := s.owed - n, cycles := s.cycles + n } := by
  induction n generalizing s with
  | zero => rfl
  | succ n ih =>
    have next : n ≤ (countTick s).owed := Nat.le_sub_one_of_lt hn
    refine (run_succ_of_next n (step_of_owed hr (by omega))).trans ((ih (s := countTick s) hr next).trans ?_)
    simp only [countTick, Nat.sub_sub, Nat.add_assoc, Nat.add_comm 1]

/-- A boundary counts no cycle itself (R306). -/
theorem boundary_cycles {s t : State} (h : boundary s = .next t) : t.cycles = s.cycles := by
  obtain ⟨-, rfl⟩ | ⟨-, -, rfl⟩ | ⟨-, he⟩ := boundary_cases h
  · exact interruptEntry_cycles _ _
  · exact interruptEntry_cycles _ _
  · exact (exec_control he).1

/-- Settles O46: the boundary's own tick, and then the ticks that burn what is still owed. -/
theorem costIsTicks : Obligations.CostIsTicks := by
  intro s b hr ho hb hbr n hn hn'
  obtain ⟨n, rfl⟩ : ∃ k, n = k + 1 := ⟨n - 1, by omega⟩
  have first : step s = .next (countTick b) :=
    (step_of_boundary hr ho hb).trans (congrArg _ (afterBoundary_of_running hbr))
  refine (run_succ_of_next n first).trans ((coreRun_owed n (s := countTick b) hbr (Nat.le_sub_one_of_lt hn')).trans ?_)
  rw [← boundary_cycles hb]
  simp only [countTick, Nat.sub_sub, Nat.add_assoc, Nat.add_comm 1]

/-- Settles O59: the record is that of the instruction fetched, whose bytes are those at PC. -/
theorem traceRecordIsBoundaryState : Obligations.TraceRecordIsBoundaryState := by
  refine fun s => ⟨fun ⟨hr, ho, hd⟩ hk => ?_, fun hb => if_neg fun ⟨hr, ho, hd, _⟩ => hb ⟨hr, ho, hd⟩⟩
  refine ⟨recordOf (fetch s) s, if_pos ⟨hr, ho, hd, hk⟩, rfl, ?opcode, ?bytes, rfl, rfl, fun m ho => ?address,
    fun hm => ?noAddress, rfl, rfl, rfl, rfl, rfl, rfl⟩
  case opcode => exact decodeOp_opcode _ _ _ _
  case bytes =>
    show (fetch s).operand.bytes = _
    rw [fetch, decodeOp_bytes, decodeOp_length _ _ (memRead s (s.pc + 1))]
  case address =>
    show (resolve (fetch s).operand s).1 = _
    rw [ho]
    rfl
  case noAddress =>
    show (resolve (fetch s).operand s).1 = _
    rw [Instr.mode] at hm
    revert hm
    cases (fetch s).operand
    case mem m => cases m <;> intro hm <;> nomatch hm
    all_goals exact fun _ => rfl

end Sys2Proof.Machine
end

section
/-! PROOF. The host's inputs, the load, the reset sequence and the default costs (O47 to O50, O58). -/

namespace Sys2Proof.Machine

open Sys2Proof.Safety

/-- Settles O47, opcode by opcode. -/
theorem costTable : Obligations.CostTable := by
  unfold Obligations.CostTable
  decide +kernel

/-- Settles O58, input by input and run state by run state. -/
theorem hostInputs : Obligations.HostInputs := by
  refine fun s => ⟨?raise, ?noRaise, fun _ => rfl, ?stop, ?noStop, ?stopped⟩
  case raise => rintro (hr | hr) <;> rw [move, raiseNmi, hr]
  case noRaise => rintro (hr | ⟨f, hr⟩) <;> rw [move, raiseNmi, hr]
  case stop =>
    intro hr
    rw [move, stopRun, hr]
  case noStop => rintro (hr | ⟨f, hr⟩) <;> rw [move, stopRun, hr]
  case stopped =>
    refine fun hr => ⟨?_, step_of_idle (.inl hr), ?_⟩
    · rw [move, stopRun, hr]
    · exact if_neg (by rw [hr]; nofun)

theorem memRead16_eq_wordAt (s : State) (a : Word) : memRead16 s a = wordAt s a := cat_eq_ofNat _ _

/-- Settles O49: each flag of RESET_REGS is the last one written to its bit. -/
theorem resetSequenceEffect : Obligations.ResetSequenceEffect := by
  refine fun s hr hc => ⟨resetSequence s, powerOn_of_reset hr hc, ⟨rfl, rfl, rfl, rfl⟩, ?_,
    resetSequence_unused s, ?_, ?_, ?_, ?_, ?_, ?_, memRead16_eq_wordAt s _, rfl, rfl, rfl, rfl, rfl, rfl⟩
  · simp [State.interruptDisable, resetSequence, resetP]
  · simp [State.carry, resetSequence, resetP]
  · simp [State.zero, resetSequence, resetP]
  · simp [State.decimal, resetSequence, resetP]
  · simp [State.brk, resetSequence, resetP]
  · simp [State.overflow, resetSequence, resetP]
  · simp [State.negative, resetSequence, resetP]

/-- Settles O50: every field is read off the reset sequence, and memory lists nothing. -/
theorem resetStateValues : Obligations.ResetStateValues := by
  refine ⟨?_, ⟨rfl, rfl, rfl, rfl⟩, rfl, rfl, rfl, rfl, rfl, rfl, rfl, fun a => ?_⟩
  · have admitted : costsAdmitted State.beforeReset.cfg = true := costsAdmitted_defaultConfig .one
    exact (powerOn_of_reset rfl admitted).trans rfl
  · unfold memRead
    cases locate State.reset.cfg.prgBanks a <;> rfl

/-- The number of banks of an image of an admitted size (R54). -/
theorem banksOf_of_length {n : Nat} (h : n = 0x4000 ∨ n = 0x8000) :
    ∃ b, banksOf n = some b ∧ n = prgSize b ∧ (b = .one ↔ n = 0x4000) := by
  obtain rfl | rfl := h
  · exact ⟨.one, rfl, rfl, by decide⟩
  · exact ⟨.two, rfl, rfl, by decide⟩

/-- The byte of PRG an address selects is its place in the image, a one-bank image being repeated (R54). -/
theorem prgOffset_eq_mod (b : Banks) (a : Word) : prgOffset b a = (a.toNat - 0x8000) % prgSize b := by
  have ha := a.isLt
  cases b
  · rfl
  · exact (Nat.mod_eq_of_lt (show a.toNat - 0x8000 < 0x8000 by omega)).symm

/-- Below 0x8000 a loaded image is not seen. -/
theorem get_storeImage_ram (prg : List Byte) (m : Memory) {k : Nat} (hk : k < 0x0800) :
    (storeImage prg 0x8000 (ramOnly m)).get k = m.get k := by
  rw [get_storeImage, if_neg (by omega), get_ramOnly m k hk]

/-- Settles O48: an image's byte stands at the offset its address selects. -/
theorem loadPlacesImage : Obligations.LoadPlacesImage := by
  intro prg s hr hl
  obtain ⟨b, hb, size, one⟩ := banksOf_of_length hl
  refine ⟨_, load_of_reset hr hb, fun a ha => ?_, fun a ha => ?_, one, rfl⟩
  · have inImage : prgOffset b a < prg.length := size ▸ prgOffset_lt b a
    refine (memRead_of_locate (locate_prg b ha)).trans ?_
    rw [get_storeImage, if_pos ⟨by omega, by omega⟩, Nat.add_sub_cancel_left, prgOffset_eq_mod, size]
  · by_cases hram : a.toNat < 0x2000
    · rw [memRead_of_locate (s := s) (locate_ram _ hram)]
      exact (memRead_of_locate (locate_ram b hram)).trans (get_storeImage_ram prg s.mem (Nat.mod_lt _ (by decide)))
    · have mapped := Nat.not_lt.mp hram
      rw [memRead_of_unmapped (s := s) (locate_unmapped _ mapped ha)]
      exact memRead_of_unmapped (locate_unmapped b mapped ha)

end Sys2Proof.Machine
end

section
/-! PROOF. Which kinds may write what (O56, O57): one pass over the meanings for the flags, one for the registers
and memory. -/

namespace Sys2Proof.Machine

open Sys2Proof.Safety

@[simp] theorem shiftMem_p (k : Kind) (op : ShiftOp) (m : MemOperand) (s : State) :
    (shiftMem k op m s).p =
      (setZN (op.result (memRead s (ea m s)) s.carry) (setC (op.carryOut (memRead s (ea m s))) s)).p := by
  simp [shiftMem]

@[simp] theorem countMem_p (k : Kind) (result : Byte → Byte) (m : MemOperand) (s : State) :
    (countMem k result m s).p = (setZN (result (memRead s (ea m s))) s).p := by
  simp [countMem]

@[simp] theorem storeInstr_p (k : Kind) (reg : Byte) (m : MemOperand) (s : State) :
    (storeInstr k reg m s).p = if s.cfg.storeSetsNZ then (setZN reg s).p else s.p := by
  unfold storeInstr
  split <;> simp [*]

@[simp] theorem branch_p (k : Kind) (taken : Bool) (off : Byte) (s : State) : (branch k taken off s).p = s.p := by
  cases taken <;> rfl

theorem shiftMem_regs (k : Kind) (op : ShiftOp) (m : MemOperand) (s : State) :
    RegsAre (shiftMem k op m s) s.a s.x s.y s.sp := by
  simp [RegsAre, shiftMem]

theorem countMem_regs (k : Kind) (result : Byte → Byte) (m : MemOperand) (s : State) :
    RegsAre (countMem k result m s) s.a s.x s.y s.sp := by
  simp [RegsAre, countMem]

theorem storeInstr_regs (k : Kind) (reg : Byte) (m : MemOperand) (s : State) :
    RegsAre (storeInstr k reg m s) s.a s.x s.y s.sp := by
  unfold storeInstr
  split <;> simp [RegsAre]

theorem branch_regs (k : Kind) (taken : Bool) (off : Byte) (s : State) :
    RegsAre (branch k taken off s) s.a s.x s.y s.sp ∧ (branch k taken off s).mem = s.mem := by
  cases taken <;> exact ⟨⟨rfl, rfl, rfl, rfl⟩, rfl⟩

/-- The kinds that may write each flag, and that none clears U (R27 to R33). -/
theorem Meaning.flagWriters {k : Kind} {o : Operand} {f : State → State} (hf : Meaning k o f) (s : State) :
    ((f s).carry ≠ s.carry →
      k ∈ ([.adc, .sbc, .cmp, .cpx, .cpy, .asl, .lsr, .rol, .ror, .clc, .sec, .plp, .rti] : List Kind)) ∧
    ((f s).interruptDisable ≠ s.interruptDisable → k ∈ ([.cli, .sei, .plp, .rti] : List Kind) ∨
      (k = .brk ∧ s.cfg.brkSetsI = true)) ∧
    ((f s).decimal ≠ s.decimal → k ∈ ([.cld, .sed, .plp, .rti] : List Kind)) ∧
    ((f s).brk ≠ s.brk → k ∈ ([.brk, .rti] : List Kind)) ∧
    ((f s).overflow ≠ s.overflow → k ∈ ([.adc, .sbc, .bit, .clv, .plp, .rti] : List Kind)) ∧
    (s.unused = true → (f s).unused = true) := by
  simp only [State.carry, State.interruptDisable, State.decimal, State.brk, State.overflow, State.unused]
  cases hf with
  | read m he => cases he <;> simp [readInstr]
  | implied he => cases he <;> simp [impliedInstr]
  | shiftAcc he => cases he <;> simp [Machine.shiftAcc]
  | shiftMem m he => cases he <;> simp
  | inc m => simp [Machine.inc]
  | dec m => simp [Machine.dec]
  | sta m => cases hz : s.cfg.storeSetsNZ <;> simp [Machine.sta, hz]
  | stx m => cases hz : s.cfg.storeSetsNZ <;> simp [Machine.stx, hz]
  | sty m => cases hz : s.cfg.storeSetsNZ <;> simp [Machine.sty, hz]
  | branch off ht => cases ht <;> simp
  | jmp m => simp [Machine.jmp]
  | jsr addr => simp [jumpSubroutine]
  | rts => simp [returnSubroutine]
  | rti => simp
  | brk => cases hi : s.cfg.brkSetsI <;> simp [softwareBreak, hi]
  | sentinel opcode => simp

/-- Settles O56: every instruction has one of the meanings. -/
theorem flagWriters : Obligations.FlagWriters := by
  intro i s t h
  obtain ⟨f, run, meaning⟩ := exec_meaning i
  cases (run s).symm.trans h
  exact meaning.flagWriters s

/-- The kinds that may write each register, and those that may write memory (R21 to R24, R61). -/
theorem Meaning.registerWriters {k : Kind} {o : Operand} {f : State → State} (hf : Meaning k o f) (s : State) :
    ((f s).a ≠ s.a → k ∈ ([.adc, .sbc, .and, .ora, .eor, .lda, .pla, .txa, .tya] : List Kind) ∨
      (k ∈ ([.asl, .lsr, .rol, .ror] : List Kind) ∧ o.mode = .acc)) ∧
    ((f s).x ≠ s.x → k ∈ ([.ldx, .tax, .tsx, .inx, .dex] : List Kind)) ∧
    ((f s).y ≠ s.y → k ∈ ([.ldy, .tay, .iny, .dey] : List Kind)) ∧
    ((f s).sp ≠ s.sp → k ∈ ([.txs, .pha, .php, .pla, .plp, .jsr, .rts, .rti, .brk] : List Kind)) ∧
    ((k ∉ ([.sta, .stx, .sty, .inc, .dec, .pha, .php, .jsr, .brk] : List Kind) ∧
      (k ∉ ([.asl, .lsr, .rol, .ror] : List Kind) ∨ o.mode = .acc)) → (f s).mem = s.mem) := by
  cases hf with
  | read m he => cases he <;> simp [readInstr]
  | implied he => cases he <;> simp [impliedInstr]
  | shiftAcc he => cases he <;> simp [Machine.shiftAcc, Operand.mode]
  | @shiftMem k op m he =>
    obtain ⟨a, x, y, sp⟩ := shiftMem_regs k op m s
    have hm : (Operand.mem m).mode ≠ .acc := by cases m <;> nofun
    cases he <;> simp [a, x, y, sp, hm]
  | inc m =>
    obtain ⟨a, x, y, sp⟩ := countMem_regs .inc (fun v => v + 1#8) m s
    simp [Machine.inc, a, x, y, sp]
  | dec m =>
    obtain ⟨a, x, y, sp⟩ := countMem_regs .dec (fun v => v - 1#8) m s
    simp [Machine.dec, a, x, y, sp]
  | sta m =>
    obtain ⟨a, x, y, sp⟩ := storeInstr_regs .sta s.a m s
    simp [Machine.sta, a, x, y, sp]
  | stx m =>
    obtain ⟨a, x, y, sp⟩ := storeInstr_regs .stx s.x m s
    simp [Machine.stx, a, x, y, sp]
  | sty m =>
    obtain ⟨a, x, y, sp⟩ := storeInstr_regs .sty s.y m s
    simp [Machine.sty, a, x, y, sp]
  | @branch k taken off ht =>
    obtain ⟨⟨a, x, y, sp⟩, hm⟩ := branch_regs k (taken s) off s
    cases ht <;> simp [a, x, y, sp, hm]
  | jmp m => simp [Machine.jmp]
  | jsr addr => simp [jumpSubroutine]
  | rts => simp [returnSubroutine]
  | rti => simp
  | brk => simp [softwareBreak]
  | sentinel opcode => simp

/-- Settles O57: the parameters are kept, so memory kept byte by byte reads as before. -/
theorem registerAndMemoryWriters : Obligations.RegisterAndMemoryWriters := by
  intro i s t h
  have cfg := (exec_control h).2.2.2.1
  obtain ⟨f, run, meaning⟩ := exec_meaning i
  cases (run s).symm.trans h
  obtain ⟨a, x, y, sp, mem⟩ := meaning.registerWriters s
  exact ⟨a, x, y, sp, fun hk => keepsMemory_of_eq (mem hk) cfg⟩

end Sys2Proof.Machine
end

section
/-! PROOF. The end of a run (O60): where a run ends, and that the core stays in the self-jump there. -/

namespace Sys2Proof.Machine

open Sys2Proof.Safety

/-- A tick at an end boundary makes it the first. -/
theorem firstEndAt_tick {a : Word} {ms : List Move} {s t : State} (h : EndsAt a s) :
    FirstEndAt a (.tick :: ms) s t ↔ t = s := by
  constructor
  · rintro ⟨before, after, eq, run, -, first⟩
    cases before with
    | nil => cases run; rfl
    | cons m before =>
      cases eq
      exact absurd h (first [] before s rfl rfl)
  · rintro rfl
    exact ⟨[], ms, rfl, rfl, h, fun earlier _ _ eq => by simp at eq⟩

/-- After any other move the first end boundary is the one of the moves that follow. -/
theorem firstEndAt_cons {a : Word} {m : Move} {ms : List Move} {s t : State} (h : ¬ (m = .tick ∧ EndsAt a s)) :
    FirstEndAt a (m :: ms) s t ↔ ∃ u, move m s = .next u ∧ FirstEndAt a ms u t := by
  constructor
  · rintro ⟨before, after, eq, run, ends, first⟩
    cases before with
    | nil =>
      cases eq
      cases run
      exact absurd ⟨rfl, ends⟩ h
    | cons m before =>
      cases eq
      obtain ⟨u, moved, run⟩ := runMoves_cons_next.mp run
      refine ⟨u, moved, before, after, rfl, run, ends, fun earlier later v eq reached => ?_⟩
      exact first (m :: earlier) later v (congrArg _ eq) (runMoves_cons_next.mpr ⟨u, moved, reached⟩)
  · rintro ⟨u, moved, before, after, rfl, run, ends, first⟩
    refine ⟨m :: before, after, rfl, runMoves_cons_next.mpr ⟨u, moved, run⟩, ends, fun earlier later v eq reached => ?_⟩
    cases earlier with
    | nil =>
      cases eq
      cases reached
      exact fun hs => h ⟨rfl, hs⟩
    | cons m earlier =>
      cases eq
      obtain ⟨u', moved', reached⟩ := runMoves_cons_next.mp reached
      cases moved.symm.trans moved'
      exact first earlier later v rfl reached

theorem not_firstEndAt_nil (a : Word) (s t : State) : ¬ FirstEndAt a [] s t := by
  rintro ⟨before, after, eq, -⟩
  simp at eq

/-- No move leads out of Stopped or Halted, so no end boundary follows. -/
theorem not_firstEndAt_of_final {a : Word} (ms : List Move) {s t : State} (h : finalEnd s ≠ none) :
    ¬ FirstEndAt a ms s t := by
  induction ms generalizing s with
  | nil => exact not_firstEndAt_nil a s t
  | cons m ms ih =>
    rw [firstEndAt_cons fun ends => h (finalEnd_of_endsAt ends.2)]
    rintro ⟨u, moved, first⟩
    refine ih ?_ first
    rwa [Ne, finalEnd_none_iff, finalEnd_move h moved, ← finalEnd_none_iff]

theorem load_ne_fault (prg : List Byte) (s : State) (f : Fault) : load prg s ≠ .fault f := by
  unfold load
  split
  · split <;> nofun
  · nofun

theorem powerOn_ne_fault (s : State) (f : Fault) : powerOn s ≠ .fault f := by
  unfold powerOn
  split
  · split <;> nofun
  · nofun

/-- Only a halted core faults (R262). -/
theorem move_ne_fault {m : Move} {s : State} (h : finalEnd s = none) (f : Fault) : move m s ≠ .fault f := by
  cases m with
  | tick =>
    obtain ⟨t, ht⟩ := step_answers (s := s) fun g hg => by simp [finalEnd_none_iff, hg] at h
    intro failed
    cases ht.symm.trans failed
  | load prg => exact load_ne_fault prg s f
  | reset => exact powerOn_ne_fault s f
  | nmiRaise => exact nofun
  | irqLine level => exact nofun
  | stop => exact nofun

theorem finalEnd_ne_endAt (s t : State) : finalEnd s ≠ some (.endAt t) := by
  intro h
  obtain ⟨-, e⟩ | ⟨f, -, e⟩ := finalEnd_some_cases h <;> cases e

/-- A run answers `endAt` exactly at its first end boundary (R315). -/
theorem runToEnd_endAt_iff (a : Word) (moves : List Move) (s t : State) :
    runToEnd (some a) moves s = .endAt t ↔ FirstEndAt a moves s t := by
  induction moves generalizing s with
  | nil =>
    refine iff_of_false (fun h => ?_) (not_firstEndAt_nil a s t)
    cases final : finalEnd s with
    | some e => exact finalEnd_ne_endAt s t (h ▸ runToEnd_of_final [] final ▸ final)
    | none => simp [runToEnd_nil, final] at h
  | cons m ms ih =>
    cases final : finalEnd s with
    | some e =>
      rw [runToEnd_of_final _ final]
      exact iff_of_false (fun h => finalEnd_ne_endAt s t (h ▸ final)) (not_firstEndAt_of_final _ (final ▸ nofun))
    | none =>
      rw [runToEnd_cons final]
      split
      · next ends =>
        obtain ⟨rfl, ends⟩ := ends
        rw [firstEndAt_tick ((isEndBoundary_some a s).mp ends), RunEnd.endAt.injEq, eq_comm]
      · next ends =>
        rw [isEndBoundary_some] at ends
        rw [firstEndAt_cons ends]
        cases move m s <;> simp [ih]

theorem leadsTo_refl (moves : List Move) (s : State) : LeadsTo moves s s := ⟨[], moves, rfl, rfl⟩

theorem leadsTo_cons {m : Move} {ms : List Move} {s t u : State} (hm : move m s = .next t) (h : LeadsTo ms t u) :
    LeadsTo (m :: ms) s u :=
  let ⟨before, after, eq, run⟩ := h
  ⟨m :: before, after, congrArg _ eq, runMoves_cons_next.mpr ⟨t, hm, run⟩⟩

/-- The ends a run can have: a final end its moves lead to, an end boundary, or none within its moves. -/
theorem runToEnd_cases (a : Option Word) (moves : List Move) (s : State) :
    (∃ t, finalEnd t = some (runToEnd a moves s) ∧ LeadsTo moves s t) ∨
    (∃ t, isEndBoundary a t = true ∧ runToEnd a moves s = .endAt t) ∨
    (∃ t, runToEnd a moves s = .unended t) ∨ (∃ r, runToEnd a moves s = .refused r) := by
  induction moves generalizing s with
  | nil =>
    rw [runToEnd_nil]
    cases final : finalEnd s with
    | some e => exact .inl ⟨s, final, leadsTo_refl _ s⟩
    | none => exact .inr (.inr (.inl ⟨s, rfl⟩))
  | cons m ms ih =>
    cases final : finalEnd s with
    | some e => exact .inl ⟨s, final.trans (congrArg _ (runToEnd_of_final _ final).symm), leadsTo_refl _ s⟩
    | none =>
      rw [runToEnd_cons final]
      split
      · next ends => exact .inr (.inl ⟨s, ends.2, rfl⟩)
      · cases moved : move m s with
        | next u =>
          obtain ⟨t, ht, leads⟩ | rest := ih u
          · exact .inl ⟨t, ht, leadsTo_cons moved leads⟩
          · exact .inr rest
        | fault f => exact absurd moved (move_ne_fault final f)
        | refused r => exact .inr (.inr (.inr ⟨r, rfl⟩))

/-- A run that ends in a final end is led there by its moves. -/
theorem runToEnd_final {a : Option Word} {moves : List Move} {s : State} {e : RunEnd} (h : runToEnd a moves s = e)
    (he : (∃ t, e = .stopped t) ∨ ∃ f t, e = .halted f t) : ∃ t, finalEnd t = some e ∧ LeadsTo moves s t := by
  subst h
  obtain led | ⟨u, -, other⟩ | ⟨u, other⟩ | ⟨r, other⟩ := runToEnd_cases a moves s
  · exact led
  all_goals
    rw [other] at he
    obtain ⟨t, e⟩ | ⟨f, t, e⟩ := he <;> cases e

/-- A run with no end address has no end boundary. -/
theorem runToEnd_none_ne_endAt (moves : List Move) (s t : State) : runToEnd none moves s ≠ .endAt t := by
  intro h
  obtain ⟨u, final, -⟩ | ⟨u, ends, -⟩ | ⟨u, other⟩ | ⟨r, other⟩ := runToEnd_cases none moves s
  · exact finalEnd_ne_endAt u t (h ▸ final)
  · simp at ends
  · cases h.symm.trans other
  · cases h.symm.trans other

/-- At PC a self-jump is fetched as such: both settings know the opcode of JMP. -/
theorem fetch_of_holdsSelfJump {a : Word} {s : State} (hpc : s.pc = a) (h : HoldsSelfJump a s) : fetch s = .jmpAbs a := by
  obtain ⟨h0, h1, h2⟩ := h
  rw [fetch, hpc, h0, h1, h2]
  cases s.cfg.admitUnlistedKinds <;> exact congrArg Instr.jmpAbs (cat_hi_lo a)

/-- The self-jump leaves PC where it is, and so changes nothing but the cost owed (R199). -/
theorem exec_selfJump {a : Word} {s : State} (hpc : s.pc = a) :
    exec (.jmpAbs a) s = .next { s with owed := baseCost s.cfg.cycleTable .jmp .abs } := by
  subst hpc
  rfl

/-- The ticks of the self-jump end at the same boundary (R306, R315). -/
theorem run_selfJump {a : Word} {s : State} (ends : EndsAt a s) (h : HoldsSelfJump a s) {c : Nat}
    (hc : c = baseCost s.cfg.cycleTable .jmp .abs) (pos : 0 < c) :
    Host.Core.run Sys2Proof.core c s = .next { s with cycles := s.cycles + c } := by
  obtain ⟨⟨hr, ho, hd⟩, hpc⟩ := ends
  have jumps : boundary s = .next { s with owed := baseCost s.cfg.cycleTable .jmp .abs } := by
    rw [boundary_of_none hd, fetch_of_holdsSelfJump hpc h, exec_selfJump hpc]
  rw [costIsTicks s _ hr ho jumps hr c pos (Nat.le_of_eq hc), ← hc, Nat.sub_self, ← ho]

/-- Settles O60: a run's ends move by move, and the self-jump as one instruction of cost c. -/
theorem selfJumpStaysAtEnd : Obligations.SelfJumpStaysAtEnd := by
  refine ⟨runToEnd_endAt_iff, fun a moves s t => ⟨fun h => ?stopped, fun f h => ?halted, runToEnd_none_ne_endAt moves s t⟩,
    fun prg a moves s t h => ?program, fun s a ends jump => ?stays⟩
  case stopped =>
    obtain ⟨u, final, leads⟩ := runToEnd_final h (.inl ⟨t, rfl⟩)
    obtain ⟨hr, e⟩ | ⟨f, -, e⟩ := finalEnd_some_cases final <;> cases e
    exact ⟨hr, leads⟩
  case halted =>
    obtain ⟨u, final, leads⟩ := runToEnd_final h (.inr ⟨f, t, rfl⟩)
    obtain ⟨-, e⟩ | ⟨g, hr, e⟩ := finalEnd_some_cases final <;> cases e
    exact ⟨hr, leads⟩
  case program =>
    rw [runProgram, filter_imageHoldsSelfJump] at h
    split at h
    · next holds => exact ⟨holds, (runToEnd_endAt_iff _ _ _ _).mp h⟩
    · exact absurd h (runToEnd_none_ne_endAt _ _ _)
  case stays =>
    have fetched := fetch_of_holdsSelfJump ends.2 jump
    exact ⟨fetched, fetched ▸ exec_selfJump ends.2, fun c hc pos => ⟨run_selfJump ends jump hc pos, ends⟩⟩

end Sys2Proof.Machine
end
